-- ==== Sys2Proof/Word.lean ====
section
/-! DEFINITION. The word types of the block (00_scope.md R10): bytes, byte strings, the 16-bit checksum register. -/

namespace Sys2Proof

/-- A byte (00_scope.md R10). -/
abbrev Byte := BitVec 8

/-- The width of the checksum register and of the polynomial (10_state.md R23, 00_scope.md R7). -/
abbrev Word16 := BitVec 16

/-- A byte string: a finite sequence of bytes (00_scope.md R10). -/
abbrev Bytes := List Byte

end Sys2Proof
end

