-- ==== Sys2Proof/Config.lean ====
section
/-! DEFINITION. The configuration parameters of 00_scope.md R7, their legal values, their defaults, the fixed
constants, and the one free value of the model. -/

namespace Sys2Proof

/-- The configuration parameters (00_scope.md R7), the read-only control registers of 10_state.md R34. They stand
in `State`, where no operation writes them, so that a statement about every state is one about every configuration. -/
structure Params where
  /-- `SYNC`, offset 0 of every transmitted frame (30_encoding.md R71). -/
  sync : Byte
  /-- `ADDR`, offset 1 of every transmitted frame (30_encoding.md R73). -/
  addr : Byte
  /-- `POLY`, the polynomial in reflected form (40_checksum.md R102). -/
  poly : Word16
  /-- `TICK_MS`, the tick period in milliseconds. -/
  tickMs : Nat
  /-- `POLL_TIMEOUT_MS`, the timeout of a synthesized Poll. -/
  pollTimeoutMs : Nat
  /-- `POLL_PAYLOAD`, the payload of a synthesized Poll. -/
  pollPayload : Bytes
  /-- `QUEUE_DEPTH`; `none` is the unbounded queue. -/
  queueDepth : Option Nat
  deriving DecidableEq, Repr

namespace Config

/-- `HDR_LEN` (00_scope.md R7). -/
def hdrLen : Nat := 3
/-- `CK_LEN` (00_scope.md R7). -/
def ckLen : Nat := 2
/-- `MAX_FRAME` (00_scope.md R7): the Length field is one byte. -/
def maxFrame : Nat := 255
/-- `MAX_PAYLOAD = MAX_FRAME - HDR_LEN - CK_LEN` (00_scope.md R7). -/
def maxPayload : Nat := 250
/-- `MIN_FRAME = HDR_LEN + CK_LEN` (00_scope.md R7). -/
def minFrame : Nat := 5
/-- `ACK_BYTE` (00_scope.md R7). -/
def ackByte : Byte := 0x00
/-- `NAK_BYTE` (00_scope.md R7). -/
def nakByte : Byte := 0xFF

/-- The defaults of 00_scope.md R7. PRESUMED, unsafe (log entry 7): `SYNC`, `ADDR`, `POLY` and `POLL_PAYLOAD` are the
spec's defaults from general knowledge of CCNet; the other three are the values R7 gives. -/
def defaults : Params where
  sync := 0x02
  addr := 0x03
  poly := 0x8408
  tickMs := 100
  pollTimeoutMs := 1000
  pollPayload := [0x33]
  queueDepth := none

/-- FREE VALUE (log entry 5): what the checksum register holds after a computation made inside another operation,
where 10_state.md R23 and 93_implementation_defined.md U16 leave it open. It has no body: nothing can be proved of it. -/
opaque freeCrc : Nat → Word16

end Config

/-- A payload the encoder accepts: 1 to 250 bytes (41_frame_codec.md R120, 42_arbiter.md R144). -/
abbrev inDomain (p : Bytes) : Prop := 1 ≤ p.length ∧ p.length ≤ Config.maxPayload

/-- The legal configurations (00_scope.md R7, 10_state.md R34). -/
abbrev Params.wf (c : Params) : Prop :=
  0 < c.tickMs ∧ inDomain c.pollPayload ∧ ∀ d ∈ c.queueDepth, 1 ≤ d

end Sys2Proof
end

