-- ==== Sys2Proof/Machine/Checksum.lean ====
section
/-! DEFINITION. The arithmetic of the checksum unit (40_checksum.md R100 to R107) as pure functions of the
polynomial, and the byte halves of a 16-bit value (00_scope.md R10). -/

namespace Sys2Proof.Machine

/-- `lo8(v) = v[7:0]` (00_scope.md R10). -/
def lo8 (v : Word16) : Byte := v.extractLsb' 0 8

/-- `hi8(v) = v[15:8]` (00_scope.md R10). -/
def hi8 (v : Word16) : Byte := v.extractLsb' 8 8

/-- `CRC.BIT(c)`: shift right once, exclusive-or the polynomial when bit 0 was set (40_checksum.md R102). -/
def crcBit (poly c : Word16) : Word16 :=
  if c.getLsbD 0 then (c >>> 1) ^^^ poly else c >>> 1

/-- `n` steps of `CRC.BIT`. -/
def crcBits (poly : Word16) : Nat → Word16 → Word16
  | 0, c => c
  | n + 1, c => crcBits poly n (crcBit poly c)

/-- `CRC.BYTE(c, b)`: the byte exclusive-ored into the low half, then eight steps (40_checksum.md R101). -/
def crcByte (poly c : Word16) (b : Byte) : Word16 :=
  crcBits poly 8 (c ^^^ b.setWidth 16)

/-- `crc16(s)`, `CRC.GEN`: from a zero register, bytes in increasing index, no final inversion (40_checksum.md R103). -/
def crc16 (poly : Word16) (s : Bytes) : Word16 :=
  s.foldl (crcByte poly) 0

/-- The two checksum bytes of `h` on the wire, low byte first (40_checksum.md R104, 20_memory.md R51). -/
def crcTrailer (poly : Word16) (h : Bytes) : Bytes :=
  [lo8 (crc16 poly h), hi8 (crc16 poly h)]

/-- `CRC.APPEND(h)` (40_checksum.md R104). -/
def crcAppend (poly : Word16) (h : Bytes) : Bytes :=
  h ++ crcTrailer poly h

/-- `CRC.VERIFY(f)`: recompute over all but the last two bytes and compare both bytes (40_checksum.md R105). -/
def crcVerify (poly : Word16) (f : Bytes) : Bool :=
  f.drop (f.length - Config.ckLen) == crcTrailer poly (f.take (f.length - Config.ckLen))

end Sys2Proof.Machine
end

