-- ==== Sys2Proof/Machine/Frame.lean ====
section
/-! DEFINITION. The frame format (30_encoding.md R70 to R79): the encoder's function `frame(p)` and the payload of a
received frame. -/

namespace Sys2Proof.Machine

/-- The Length byte of a frame with payload `p`: the total length of the frame (30_encoding.md R72). -/
def frameLen (p : Bytes) : Byte := BitVec.ofNat 8 (p.length + Config.minFrame)

/-- Header and payload, `[SYNC, ADDR, len] ++ p` (30_encoding.md R77). -/
def frameBody (c : Params) (p : Bytes) : Bytes :=
  [c.sync, c.addr, frameLen p] ++ p

/-- `frame(p)` (41_frame_codec.md R120); its domain is `inDomain p`. -/
def frame (c : Params) (p : Bytes) : Bytes :=
  crcAppend c.poly (frameBody c p)

/-- `payload(f) = f[3 .. n-2]` (41_frame_codec.md R124); its domain is `5 ≤ n`. -/
def payload (f : Bytes) : Bytes :=
  (f.take (f.length - Config.ckLen)).drop Config.hdrLen

/-- The payload of an ACK frame and of an ACK marker (30_encoding.md R74). -/
def ackPayload : Bytes := [Config.ackByte]

/-- The payload of a NAK frame and of a NAK marker (30_encoding.md R74). -/
def nakPayload : Bytes := [Config.nakByte]

end Sys2Proof.Machine
end

