-- ==== Sys2Proof/Syntax.lean ====
section
/-! DEFINITION. The operations of the block, one constructor of `Instr` per row of spec/opcode_table.json, and the
records they take as operands. -/

namespace Sys2Proof

/-- The errors that end a request (60_exceptions.md R200); the code 0, `OK`, is `Verdict.ok`. -/
inductive LinkError where
  /-- 1: no response within the Task's budget. -/
  | requestTimeout
  /-- 2: the inbound frame failed verification. -/
  | checksumMismatch
  /-- 3: an inbound NAK marker was received. -/
  | peerRejected
  /-- 4: raised by the Status Classifier, outside the block; never by the block. -/
  | unrecognizedStatus
  /-- 5: open, write or close failure of the transport. -/
  | transportError
  /-- 6: the link was torn down, or is closed. -/
  | connectionClosed
  /-- 7: a payload that cannot be framed. -/
  | payloadLength
  /-- 8: a finite queue is full. -/
  | queueFull
  deriving DecidableEq, Repr

/-- What a completion sink is called with: success with the response payload, or an error without one
(10_state.md R36, 30_encoding.md R83: the payload is present exactly when `err = OK`). -/
inductive Verdict where
  | ok (payload : Bytes)
  | error (e : LinkError)
  deriving DecidableEq, Repr

/-- Who gets the result of a Task (10_state.md R31): `HOST` with the tag the host chose, or `POLL`, which has none.
The opaque tag is a natural number (log entry 22, DESIGN CHOICE, safe: no rule looks into it). -/
inductive TaskKind where
  | host (tag : Nat)
  | poll
  deriving DecidableEq, Repr

/-- A Task record (10_state.md R31). -/
structure Task where
  /-- `kind`, and with `HOST` the `tag`. -/
  kind : TaskKind
  /-- `frame`, the outbound bytes, fixed when the Task is created (20_memory.md R66). -/
  frame : Bytes
  /-- `timeout` in milliseconds, 0 for none; unbounded as in the spec's model (10_state.md R29, log entry 9). -/
  timeout : Nat
  deriving DecidableEq, Repr

/-- The operations of spec/opcode_table.json, in the table's order; each constructor names its row. -/
inductive Instr where
  /-- RESET, event 0 (70_reset_and_hazards.md R240). -/
  | reset
  /-- OPEN, event 1 (42_arbiter.md R141). -/
  | openLink
  /-- CLOSE, event 2 (42_arbiter.md R142). -/
  | closeLink
  /-- TERR, event 3 (42_arbiter.md R160). -/
  | terr
  /-- SUBMIT, event 4 (42_arbiter.md R143). -/
  | submit (tag : Nat) (p : Bytes) (timeoutMs : Nat)
  /-- TICK, event 5 (42_arbiter.md R146). -/
  | tick
  /-- RXBYTE, event 6 (41_frame_codec.md R122). -/
  | rxbyte (b : Byte)
  /-- EV.RESERVED, events 7 to 15 (30_encoding.md R81). -/
  | evReserved (ev : BitVec 4)
  /-- SUBMIT.PAYLOADLENGTH, a SUBMIT that is refused for its payload's length (42_arbiter.md R144). -/
  | submitPayloadLength (tag : Nat) (p : Bytes) (timeoutMs : Nat)
  /-- SUBMIT.QUEUEFULL, a SUBMIT that finds a finite queue full (42_arbiter.md R145). -/
  | submitQueueFull (tag : Nat) (p : Bytes) (timeoutMs : Nat)
  /-- TICK.ACCOUNT (42_arbiter.md R147). -/
  | tickAccount
  /-- DISPATCH (42_arbiter.md R148). -/
  | dispatch (t : Task)
  /-- POLLSYNTH (42_arbiter.md R149). -/
  | pollSynth
  /-- TIMEOUT (42_arbiter.md R150). -/
  | timeout
  /-- RXFRAME (42_arbiter.md R151). -/
  | rxFrame (f : Bytes)
  /-- COMPLETE (42_arbiter.md R157). -/
  | complete (t : Task) (v : Verdict)
  /-- RX.IDLE (42_arbiter.md R152). -/
  | rxIdle (f : Bytes)
  /-- RX.BAD (42_arbiter.md R153). -/
  | rxBad
  /-- RX.ACK (42_arbiter.md R154). -/
  | rxAck
  /-- RX.NAK (42_arbiter.md R155). -/
  | rxNak
  /-- RX.DATA (42_arbiter.md R156). -/
  | rxData (p : Bytes)
  /-- TX.REQ (30_encoding.md R79). -/
  | txReq (p : Bytes)
  /-- TX.ACK (30_encoding.md R79). -/
  | txAck
  /-- TX.NAK (30_encoding.md R79). -/
  | txNak
  /-- ENC.FRAME (41_frame_codec.md R120). -/
  | encFrame (p : Bytes)
  /-- DEC.EMIT (41_frame_codec.md R123). -/
  | decEmit
  /-- DEC.PAYLOAD (41_frame_codec.md R124). -/
  | decPayload (f : Bytes)
  /-- DEC.CLEAR (41_frame_codec.md R125). -/
  | decClear
  /-- CRC.INIT (40_checksum.md R100). -/
  | crcInit
  /-- CRC.BIT (40_checksum.md R102). -/
  | crcBit (c : Word16)
  /-- CRC.BYTE (40_checksum.md R101). -/
  | crcByte (c : Word16) (b : Byte)
  /-- CRC.GEN (40_checksum.md R103). -/
  | crcGen (bs : Bytes)
  /-- CRC.APPEND (40_checksum.md R104). -/
  | crcAppend (h : Bytes)
  /-- CRC.VERIFY (40_checksum.md R105). -/
  | crcVerify (f : Bytes)
  deriving DecidableEq, Repr

/-- The rows with the table's format EVENT: what the agents of 00_scope.md R9 can present to the block. -/
def Instr.isEvent : Instr → Bool
  | .reset => true
  | .openLink => true
  | .closeLink => true
  | .terr => true
  | .submit _ _ _ => true
  | .tick => true
  | .rxbyte _ => true
  | .evReserved _ => true
  | .submitPayloadLength _ _ _ => false
  | .submitQueueFull _ _ _ => false
  | .tickAccount => false
  | .dispatch _ => false
  | .pollSynth => false
  | .timeout => false
  | .rxFrame _ => false
  | .complete _ _ => false
  | .rxIdle _ => false
  | .rxBad => false
  | .rxAck => false
  | .rxNak => false
  | .rxData _ => false
  | .txReq _ => false
  | .txAck => false
  | .txNak => false
  | .encFrame _ => false
  | .decEmit => false
  | .decPayload _ => false
  | .decClear => false
  | .crcInit => false
  | .crcBit _ => false
  | .crcByte _ _ => false
  | .crcGen _ => false
  | .crcAppend _ => false
  | .crcVerify _ => false

end Sys2Proof
end

