-- ==== Sys2Proof/WellFormed.lean ====
section
/-! DEFINITION. Which operations are well formed: the conditions the spec puts on an operation's operands alone. -/

namespace Sys2Proof

/-- A Task's frame has 6 to 255 bytes (10_state.md R31). -/
abbrev Task.wf (t : Task) : Prop := 6 ≤ t.frame.length ∧ t.frame.length ≤ Config.maxFrame

/-- A frame the assembler can hand over has 3 to 255 bytes (42_arbiter.md R151). -/
abbrev assembled (f : Bytes) : Prop := Config.hdrLen ≤ f.length ∧ f.length ≤ Config.maxFrame

/-- A payload of class DATA: at most 250 bytes and not one of the two markers (30_encoding.md R78). -/
abbrev dataPayload (p : Bytes) : Prop :=
  p.length ≤ Config.maxPayload ∧ p ≠ Machine.ackPayload ∧ p ≠ Machine.nakPayload

/-- A verdict's payload has at most 250 bytes (30_encoding.md R83). -/
def Verdict.wf : Verdict → Bool
  | .ok p => p.length ≤ Config.maxPayload
  | .error _ => true

/-- The operand conditions of each row; an operation without a condition is always well formed. -/
def Instr.wellFormed : Instr → Bool
  | .reset => true
  | .openLink => true
  | .closeLink => true
  | .terr => true
  | .submit _ _ _ => true
  | .tick => true
  | .rxbyte _ => true
  | .evReserved ev => 7 ≤ ev.toNat
  | .submitPayloadLength _ p _ => !decide (inDomain p)
  | .submitQueueFull _ p _ => decide (inDomain p)
  | .tickAccount => true
  | .dispatch t => decide t.wf
  | .pollSynth => true
  | .timeout => true
  | .rxFrame f => decide (assembled f)
  | .complete t v => decide t.wf && v.wf
  | .rxIdle f => decide (assembled f)
  | .rxBad => true
  | .rxAck => true
  | .rxNak => true
  | .rxData p => decide (dataPayload p)
  | .txReq p => decide (inDomain p)
  | .txAck => true
  | .txNak => true
  | .encFrame p => decide (inDomain p)
  | .decEmit => true
  | .decPayload f => Config.minFrame ≤ f.length
  | .decClear => true
  | .crcInit => true
  | .crcBit _ => true
  | .crcByte _ _ => true
  | .crcGen _ => true
  | .crcAppend _ => true
  | .crcVerify f => Config.minFrame ≤ f.length

end Sys2Proof
end

