-- ==== Sys2Proof/Decode.lean ====
section
/-! DEFINITION. The encodings: the error codes of 60_exceptions.md R200, the classes of a received frame
(30_encoding.md R78), the decoder of operation records with the event-select codes of 30_encoding.md R81, its encoder,
and the words of spec/opcode_table.json.

A RECORD is the byte string by which one operation is presented to the machine. Its first byte is the head. A head
below 0x10 is an input event, and its low four bits are the event-select code `ev` of R81. The operands of an event
follow in the order the spec lists them. The spec gives operands no encoding and gives most rows none at all, so the
form of the operands (log entry 2) and the heads from 0x10 on (log entry 3) are the model's own DESIGN CHOICE. -/

namespace Sys2Proof

/-! ## Error codes -/

/-- The 4-bit code of an error (60_exceptions.md R200). -/
def LinkError.code : LinkError → BitVec 4
  | .requestTimeout => 1
  | .checksumMismatch => 2
  | .peerRejected => 3
  | .unrecognizedStatus => 4
  | .transportError => 5
  | .connectionClosed => 6
  | .payloadLength => 7
  | .queueFull => 8

/-- The error of a code; 0 is `OK` and 9 to 15 are reserved (60_exceptions.md R200). -/
def LinkError.ofCode (c : BitVec 4) : Option LinkError :=
  match c.toNat with
  | 1 => some .requestTimeout
  | 2 => some .checksumMismatch
  | 3 => some .peerRejected
  | 4 => some .unrecognizedStatus
  | 5 => some .transportError
  | 6 => some .connectionClosed
  | 7 => some .payloadLength
  | 8 => some .queueFull
  | _ => none

/-- The `err` field of a completion record (30_encoding.md R83): 0 for `OK`. -/
def Verdict.code : Verdict → BitVec 4
  | .ok _ => 0
  | .error e => e.code

/-- The `payload` field of a completion record, present exactly when `err = OK` (30_encoding.md R83). -/
def Verdict.payload : Verdict → Option Bytes
  | .ok p => some p
  | .error _ => none

/-! ## Classes of a received frame -/

/-- The classes into which a frame assembled while busy is sorted (30_encoding.md R78). -/
inductive FrameClass where
  | bad
  | ack
  | nak
  | data (p : Bytes)
  deriving DecidableEq, Repr

/-- The class of a frame, tested in the order of 30_encoding.md R78 and 60_exceptions.md R221: size, checksum, ACK
marker, NAK marker, data. Sync and Address are not compared (R93). -/
def classify (poly : Word16) (f : Bytes) : FrameClass :=
  if f.length < Config.minFrame then .bad
  else if Machine.crcVerify poly f = false then .bad
  else if Machine.payload f = Machine.ackPayload then .ack
  else if Machine.payload f = Machine.nakPayload then .nak
  else .data (Machine.payload f)

/-- The row of the operation table that a class stands for. -/
def FrameClass.row : FrameClass → Instr
  | .bad => .rxBad
  | .ack => .rxAck
  | .nak => .rxNak
  | .data p => .rxData p

/-! ## Reading operands -/

/-- Why a record is no operation. -/
inductive DecodeError where
  /-- The record has no byte. -/
  | emptyRecord
  /-- No operation has this head. -/
  | unknownHead (b : Byte)
  /-- An operand is cut short or holds a reserved value. -/
  | badOperand (head : Byte)
  /-- The operands break a condition of `Instr.wellFormed`. -/
  | illFormed (head : Byte)
  deriving DecidableEq, Repr

/-- One byte. -/
def takeByte : Bytes → Option (Byte × Bytes)
  | [] => none
  | b :: r => some (b, r)

/-- A 16-bit value, low byte first (20_memory.md R51: multi-byte values are little-endian). -/
def takeWord : Bytes → Option (Word16 × Bytes)
  | lo :: hi :: r => some (hi ++ lo, r)
  | _ => none

/-- A natural number in groups of seven bits, lowest first; bit 7 of a byte says that another group follows. -/
def takeNat : Bytes → Option (Nat × Bytes)
  | [] => none
  | b :: r =>
    if b.toNat < 128 then some (b.toNat, r)
    else match takeNat r with
      | none => none
      | some (n, r') => some (b.toNat - 128 + 128 * n, r')

/-- A byte string: its length, then its bytes. -/
def takeBytes (bs : Bytes) : Option (Bytes × Bytes) :=
  match takeNat bs with
  | none => none
  | some (n, r) => if n ≤ r.length then some (r.take n, r.drop n) else none

/-- A Task's kind: 0 and the tag, or 1. -/
def takeKind : Bytes → Option (TaskKind × Bytes)
  | [] => none
  | b :: r =>
    if b = 0 then
      match takeNat r with
      | none => none
      | some (tag, r') => some (.host tag, r')
    else if b = 1 then some (.poll, r)
    else none

/-- A Task: kind, frame, timeout. -/
def takeTask (bs : Bytes) : Option (Task × Bytes) :=
  match takeKind bs with
  | none => none
  | some (k, r) =>
    match takeBytes r with
    | none => none
    | some (f, r') =>
      match takeNat r' with
      | none => none
      | some (t, r'') => some (⟨k, f, t⟩, r'')

/-- A verdict: the error code of 60_exceptions.md R200, and after code 0 the payload. -/
def takeVerdict : Bytes → Option (Verdict × Bytes)
  | [] => none
  | b :: r =>
    if b = 0 then
      match takeBytes r with
      | none => none
      | some (p, r') => some (.ok p, r')
    else if 16 ≤ b.toNat then none
    else match LinkError.ofCode (b.setWidth 4) with
      | none => none
      | some e => some (.error e, r)

/-- The operands `tag, payload, timeout` of a SUBMIT (30_encoding.md R81). -/
def takeSubmit (bs : Bytes) : Option ((Nat × Bytes × Nat) × Bytes) :=
  match takeNat bs with
  | none => none
  | some (tag, r) =>
    match takeBytes r with
    | none => none
    | some (p, r') =>
      match takeNat r' with
      | none => none
      | some (t, r'') => some ((tag, p, t), r'')

/-- The operands of a CRC.BYTE: the register value and the byte. -/
def takeWordByte (bs : Bytes) : Option ((Word16 × Byte) × Bytes) :=
  match takeWord bs with
  | none => none
  | some (c, r) =>
    match takeByte r with
    | none => none
    | some (b, r') => some ((c, b), r')

/-- A Task and a verdict. -/
def takeCompletion (bs : Bytes) : Option ((Task × Verdict) × Bytes) :=
  match takeTask bs with
  | none => none
  | some (t, r) =>
    match takeVerdict r with
    | none => none
    | some (v, r') => some ((t, v), r')

/-! ## The decoder -/

/-- An operation from its operands, or the refusal of the record when they cannot be read. -/
def withOperands {α : Type} (head : Byte) (read : Option (α × Bytes)) (k : α → Instr) :
    Except DecodeError (Instr × Bytes) :=
  match read with
  | none => .error (.badOperand head)
  | some (a, r) => .ok (k a, r)

/-- The operation of a head, with its operands read from the bytes after it. Heads 0x00 to 0x0F are the
event-select codes of 30_encoding.md R81; the rest are the model's tabulation (log entry 3). -/
def decodeHead (b : Byte) (r : Bytes) : Except DecodeError (Instr × Bytes) :=
  match b.toNat with
  | 0x00 => .ok (.reset, r)
  | 0x01 => .ok (.openLink, r)
  | 0x02 => .ok (.closeLink, r)
  | 0x03 => .ok (.terr, r)
  | 0x04 => withOperands b (takeSubmit r) fun x => .submit x.1 x.2.1 x.2.2
  | 0x05 => .ok (.tick, r)
  | 0x06 => withOperands b (takeByte r) .rxbyte
  | 0x07 => .ok (.evReserved 7, r)
  | 0x08 => .ok (.evReserved 8, r)
  | 0x09 => .ok (.evReserved 9, r)
  | 0x0A => .ok (.evReserved 10, r)
  | 0x0B => .ok (.evReserved 11, r)
  | 0x0C => .ok (.evReserved 12, r)
  | 0x0D => .ok (.evReserved 13, r)
  | 0x0E => .ok (.evReserved 14, r)
  | 0x0F => .ok (.evReserved 15, r)
  | 0x10 => withOperands b (takeSubmit r) fun x => .submitPayloadLength x.1 x.2.1 x.2.2
  | 0x11 => withOperands b (takeSubmit r) fun x => .submitQueueFull x.1 x.2.1 x.2.2
  | 0x20 => .ok (.tickAccount, r)
  | 0x21 => withOperands b (takeTask r) .dispatch
  | 0x22 => .ok (.pollSynth, r)
  | 0x23 => .ok (.timeout, r)
  | 0x24 => withOperands b (takeBytes r) .rxFrame
  | 0x25 => withOperands b (takeCompletion r) fun x => .complete x.1 x.2
  | 0x26 => .ok (.decEmit, r)
  | 0x27 => .ok (.decClear, r)
  | 0x30 => withOperands b (takeBytes r) .rxIdle
  | 0x31 => .ok (.rxBad, r)
  | 0x32 => .ok (.rxAck, r)
  | 0x33 => .ok (.rxNak, r)
  | 0x34 => withOperands b (takeBytes r) .rxData
  | 0x40 => withOperands b (takeBytes r) .txReq
  | 0x41 => .ok (.txAck, r)
  | 0x42 => .ok (.txNak, r)
  | 0x50 => withOperands b (takeBytes r) .encFrame
  | 0x51 => withOperands b (takeBytes r) .decPayload
  | 0x52 => .ok (.crcInit, r)
  | 0x53 => withOperands b (takeWord r) .crcBit
  | 0x54 => withOperands b (takeWordByte r) fun x => .crcByte x.1 x.2
  | 0x55 => withOperands b (takeBytes r) .crcGen
  | 0x56 => withOperands b (takeBytes r) .crcAppend
  | 0x57 => withOperands b (takeBytes r) .crcVerify
  | _ => .error (.unknownHead b)

/-- The operation a record presents, and the bytes after it; total on any bytes, refusing by name. -/
def decode : Bytes → Except DecodeError (Instr × Bytes)
  | [] => .error .emptyRecord
  | b :: r =>
    match decodeHead b r with
    | .error e => .error e
    | .ok (i, r') => if i.wellFormed then .ok (i, r') else .error (.illFormed b)

/-! ## The encoder -/

/-- The seven-bit groups of `n`; the first argument bounds their number. -/
def natGroups : Nat → Nat → Bytes
  | 0, n => [BitVec.ofNat 8 (n % 128)]
  | k + 1, n =>
    if n < 128 then [BitVec.ofNat 8 n]
    else BitVec.ofNat 8 (n % 128 + 128) :: natGroups k (n / 128)

/-- A natural number as `takeNat` reads it. -/
def putNat (n : Nat) : Bytes := natGroups n n

/-- A byte string as `takeBytes` reads it. -/
def putBytes (bs : Bytes) : Bytes := putNat bs.length ++ bs

/-- A 16-bit value as `takeWord` reads it. -/
def putWord (c : Word16) : Bytes := [Machine.lo8 c, Machine.hi8 c]

/-- A Task's kind as `takeKind` reads it. -/
def putKind : TaskKind → Bytes
  | .host tag => 0 :: putNat tag
  | .poll => [1]

/-- A Task as `takeTask` reads it. -/
def putTask (t : Task) : Bytes := putKind t.kind ++ putBytes t.frame ++ putNat t.timeout

/-- A verdict as `takeVerdict` reads it. -/
def putVerdict : Verdict → Bytes
  | .ok p => 0 :: putBytes p
  | .error e => [e.code.setWidth 8]

/-- The operands of a SUBMIT as `takeSubmit` reads them. -/
def putSubmit (tag : Nat) (p : Bytes) (t : Nat) : Bytes := putNat tag ++ putBytes p ++ putNat t

/-- The head of an operation's record. -/
def Instr.head : Instr → Byte
  | .reset => 0x00
  | .openLink => 0x01
  | .closeLink => 0x02
  | .terr => 0x03
  | .submit _ _ _ => 0x04
  | .tick => 0x05
  | .rxbyte _ => 0x06
  | .evReserved ev => ev.setWidth 8
  | .submitPayloadLength _ _ _ => 0x10
  | .submitQueueFull _ _ _ => 0x11
  | .tickAccount => 0x20
  | .dispatch _ => 0x21
  | .pollSynth => 0x22
  | .timeout => 0x23
  | .rxFrame _ => 0x24
  | .complete _ _ => 0x25
  | .decEmit => 0x26
  | .decClear => 0x27
  | .rxIdle _ => 0x30
  | .rxBad => 0x31
  | .rxAck => 0x32
  | .rxNak => 0x33
  | .rxData _ => 0x34
  | .txReq _ => 0x40
  | .txAck => 0x41
  | .txNak => 0x42
  | .encFrame _ => 0x50
  | .decPayload _ => 0x51
  | .crcInit => 0x52
  | .crcBit _ => 0x53
  | .crcByte _ _ => 0x54
  | .crcGen _ => 0x55
  | .crcAppend _ => 0x56
  | .crcVerify _ => 0x57

/-- The operand bytes of an operation's record. -/
def Instr.operands : Instr → Bytes
  | .reset => []
  | .openLink => []
  | .closeLink => []
  | .terr => []
  | .submit tag p t => putSubmit tag p t
  | .tick => []
  | .rxbyte b => [b]
  | .evReserved _ => []
  | .submitPayloadLength tag p t => putSubmit tag p t
  | .submitQueueFull tag p t => putSubmit tag p t
  | .tickAccount => []
  | .dispatch t => putTask t
  | .pollSynth => []
  | .timeout => []
  | .rxFrame f => putBytes f
  | .complete t v => putTask t ++ putVerdict v
  | .decEmit => []
  | .decClear => []
  | .rxIdle f => putBytes f
  | .rxBad => []
  | .rxAck => []
  | .rxNak => []
  | .rxData p => putBytes p
  | .txReq p => putBytes p
  | .txAck => []
  | .txNak => []
  | .encFrame p => putBytes p
  | .decPayload f => putBytes f
  | .crcInit => []
  | .crcBit c => putWord c
  | .crcByte c b => putWord c ++ [b]
  | .crcGen bs => putBytes bs
  | .crcAppend h => putBytes h
  | .crcVerify f => putBytes f

/-- The record of an operation. -/
def encode (i : Instr) : Bytes := i.head :: i.operands

/-! ## The words of spec/opcode_table.json -/

/-- The rows whose match and mask span a 6-byte frame, byte 0 most significant (spec/opcode_table.json: TX.ACK,
TX.NAK, RX.ACK, RX.NAK), the rows that fix more bits first. The mask says nothing of the checksum, which the classes
also require; `classify` tests it (log entry 18). -/
def frameRows : List (Nat × Nat × Instr) :=
  [(0xFFFFFFFFFFFF, 0x02030600C282, .txAck),
   (0xFFFFFFFFFFFF, 0x020306FFBA8D, .txNak),
   (0x0000FFFF0000, 0x000006000000, .rxAck),
   (0x0000FFFF0000, 0x000006FF0000, .rxNak)]

/-- The first row of `frameRows` whose masked bits a 48-bit frame word has. -/
def frameRow (w : Nat) : Option Instr :=
  (frameRows.find? fun row => w &&& row.1 == row.2.1).map fun row => row.2.2

/-- An event-select word as a record: the head byte, then operand bytes of zeros. -/
def eventRecord (w : Nat) : Bytes := BitVec.ofNat 8 w :: List.replicate 7 0

/-- The operation of a word of the operation table: up to 8 bits the event-select code, up to 48 bits a frame. -/
def decodeTableWord (nbits w : Nat) : Option Instr :=
  if nbits = 0 ∨ 2 ^ nbits ≤ w then none
  else if nbits ≤ 8 then
    match decode (eventRecord w) with
    | .ok (i, _) => some i
    | .error _ => none
  else if nbits ≤ 48 then frameRow w
  else none

end Sys2Proof
end

