-- ==== Sys2Proof/Machine/State.lean ====
section
/-! DEFINITION. The state of the block as plain data (10_state.md R20 to R42), its state after reset (R41), and the
reasons a step can stop. -/

namespace Sys2Proof.Machine

/-- `LINK`, the transport as the block sees it (10_state.md R32). -/
inductive Link where
  | closed
  | opened
  deriving DecidableEq, Repr

/-- `ARB`, the arbiter state (10_state.md R26). -/
inductive Arb where
  | idle
  | awaitingResponse
  deriving DecidableEq, Repr

/-- The three kinds of frame the block transmits (30_encoding.md R79). -/
inductive TxKind where
  | req
  | ack
  | nak
  deriving DecidableEq, Repr

/-- One entry of the output history, in order of emission (20_memory.md R62, R64; log entry 8). -/
inductive Output where
  /-- `emit TX(s)`: a whole frame (10_state.md R35, 20_memory.md R57). -/
  | tx (kind : TxKind) (f : Bytes)
  /-- `emit COMPL(tag, err, payload)` (10_state.md R36); the verdict holds `err` and `payload`. -/
  | compl (tag : Nat) (v : Verdict)
  /-- `emit STATUS(code, changed)` (10_state.md R37). -/
  | status (code : Bytes) (changed : Bool)
  /-- `emit STATUS(poll_error, err)` (10_state.md R37). -/
  | pollError (e : LinkError)
  deriving DecidableEq, Repr

/-- A record of the STATUS stream (30_encoding.md R84). -/
inductive StatusRecord where
  | code (code : Bytes) (changed : Bool)
  | pollError (e : LinkError)
  deriving DecidableEq, Repr

/-- What an operation that returns a value returned when it ran on its own (log entry 4). -/
inductive Returned where
  | nothing
  | word (v : Word16)
  | bytes (v : Bytes)
  | flag (v : Bool)
  | task (t : Task)
  deriving DecidableEq, Repr

/-- `RXBUF` as (offset, byte) pairs in one canonical form: offsets rising, none listed with the byte an unlisted offset
reads as (10_state.md R21, 20_memory.md R50). -/
abbrev Memory := List Host.Cell

/-- The state of the block. -/
structure State where
  /-- `SYNC`, `ADDR`, `POLY`, `TICK_MS`, `POLL_TIMEOUT_MS`, `POLL_PAYLOAD`, `QUEUE_DEPTH` (10_state.md R34). -/
  cfg : Params
  /-- `LINK` (10_state.md R32). -/
  link : Link
  /-- `ARB` (10_state.md R26). -/
  arb : Arb
  /-- `CUR` (10_state.md R24). -/
  cur : Option Task
  /-- `Q`, head first (10_state.md R30). -/
  q : List Task
  /-- `TO_ARMED` (10_state.md R29). -/
  toArmed : Bool
  /-- `TO_ACC` in milliseconds (10_state.md R29; log entry 9). -/
  toAcc : Nat
  /-- `RXBUF` (10_state.md R21). -/
  rxbuf : Memory
  /-- `RXCNT` (10_state.md R22). -/
  rxcnt : BitVec 8
  /-- `LASTSTATUS` (10_state.md R33). -/
  lastStatus : Option Bytes
  /-- `CRC`, the working register of the checksum unit (10_state.md R23; log entry 5). -/
  crc : Word16
  /-- `TX`, `COMPL` and `STATUS` as one history (10_state.md R35 to R37; log entry 8). -/
  out : List Output
  /-- The model's own: which free value `CRC` takes next (log entry 5). -/
  free : Nat
  /-- The model's own: the value the last function run on its own returned (log entry 4). -/
  ret : Returned
  /-- The model's own: the records of the input events still to come, in order (00_scope.md R9, R12; log entry 1). -/
  input : List Bytes
  /-- The model's own: a record of the operation table to run on its own, filled by nothing in the block (log entry 3). -/
  probe : Option Bytes
  deriving DecidableEq, Repr

/-- Why the machine stops with a fault. None is reachable from reset by input events under a legal configuration. -/
inductive Fault where
  /-- Raised by TICK.ACCOUNT, TIMEOUT, RX.BAD, RX.NAK and RX.DATA (and the events that run them) when the operation takes
  the in-flight Task out of `CUR` and `CUR` holds none, which 10_state.md R39 items 1 and 2 rule out. Safe (log entry 10). -/
  | noTaskInFlight
  /-- Raised by ENC.FRAME, TX.REQ, DEC.PAYLOAD, CRC.VERIFY for an operand outside the domain their rules give, and by
  POLLSYNTH (and TICK) for a `POLL_PAYLOAD` outside 00_scope.md R7's range. Safe (log entry 11). -/
  | outsideDomain
  /-- Raised by RXBYTE and DEC.EMIT for an access to `RXBUF` at or above offset 255, which does not exist (20_memory.md
  R50); it needs `RXCNT = 255` between events, which 10_state.md R22 rules out. Safe (log entry 12). -/
  | rxbufRange
  /-- Raised by SUBMIT.PAYLOADLENGTH and SUBMIT.QUEUEFULL, run on their own in a state where SUBMIT with these operands
  has another outcome. Safe (log entry 15). -/
  | conditionNotMet
  deriving DecidableEq, Repr

/-- Why the machine refuses to take a step. -/
inductive Refusal where
  /-- Raised by `exec` for an instruction without a meaning. Safe; no arm uses it. -/
  | notModelled (mnemonic : String)
  /-- Raised by `step` for a record that presents no operation. Safe (log entry 2). -/
  | undecodable (e : DecodeError)
  /-- Raised by `step` for a record among the input events that presents an operation no agent can. Safe (log entry 3). -/
  | notAnEvent
  deriving DecidableEq, Repr

/-- The state after reset (10_state.md R41). The block's fields are R41's values; `CRC`, which R41 leaves unspecified,
is 0 (log entry 5, DESIGN CHOICE, unsafe); `RXBUF`, which it leaves unspecified too, lists nothing (log entry 6). -/
def State.reset : State where
  cfg := Config.defaults
  link := .closed
  arb := .idle
  cur := none
  q := []
  toArmed := false
  toAcc := 0
  rxbuf := []
  rxcnt := 0
  lastStatus := none
  crc := 0
  out := []
  free := 0
  ret := .nothing
  input := []
  probe := none

end Sys2Proof.Machine
end

