-- ==== Sys2Proof/Machine/Memory.lean ====
section
/-! DEFINITION. The accesses to `RXBUF` (20_memory.md R50): one byte, and the `MemRead` and `MemWrite` of 00_scope.md R11. -/

namespace Sys2Proof.Machine

/-- The size of `RXBUF` (10_state.md R21): offsets 0 to 254 exist. -/
def rxbufSize : Nat := Config.maxFrame

/-- What an unlisted offset reads as. The spec leaves it open (10_state.md R41): DESIGN CHOICE, unsafe (log entry 6). -/
def Memory.unlisted : Byte := 0x00

/-- The byte at an offset. -/
def Memory.byte : Memory → Nat → Byte
  | [], _ => Memory.unlisted
  | (b, x) :: m, a => if b = a then x else Memory.byte m a

/-- The memory with one byte written, in canonical form. -/
def Memory.set : Memory → Nat → Byte → Memory
  | [], a, v => if v = Memory.unlisted then [] else [(a, v)]
  | (b, x) :: m, a, v =>
    if a < b then (if v = Memory.unlisted then (b, x) :: m else (a, v) :: (b, x) :: m)
    else if a = b then (if v = Memory.unlisted then m else (a, v) :: m)
    else (b, x) :: Memory.set m a v

/-- The canonical form above a lower bound: offsets rising from `lo`, within `RXBUF`, no unlisted byte listed. -/
def Memory.wfFrom : Nat → Memory → Bool
  | _, [] => true
  | lo, (a, v) :: m => lo ≤ a && a < rxbufSize && v != Memory.unlisted && Memory.wfFrom (a + 1) m

/-- The canonical form. -/
def Memory.wf (m : Memory) : Bool := Memory.wfFrom 0 m

/-- The `n` bytes from offset `a`, without a range check. -/
def Memory.bytes (m : Memory) (a : Nat) : Nat → Bytes
  | 0 => []
  | n + 1 => m.byte a :: Memory.bytes m (a + 1) n

/-- The memory with a byte string written from offset `a`, without a range check. -/
def Memory.setBytes (m : Memory) (a : Nat) : Bytes → Memory
  | [] => m
  | b :: bs => Memory.setBytes (m.set a b) (a + 1) bs

/-- `MemRead(addr, n)`; it needs `addr + n <= 255` (20_memory.md R50). -/
def Memory.read (m : Memory) (a n : Nat) : Option Bytes :=
  if a + n ≤ rxbufSize then some (m.bytes a n) else none

/-- `MemWrite(addr, n, v)` with `n` the length of `v`; it needs `addr + n <= 255` (20_memory.md R50). -/
def Memory.write (m : Memory) (a : Nat) (v : Bytes) : Option Memory :=
  if a + v.length ≤ rxbufSize then some (m.setBytes a v) else none

end Sys2Proof.Machine
end

