-- ==== Sys2Proof/Machine/Flags.lean ====
section
/-! DEFINITION. The flags and conditions the operations test (10_state.md R27 to R29, 60_exceptions.md R216), and the
three output streams as views of the history. -/

namespace Sys2Proof.Machine

/-- `busy = (ARB = AWAITING_RESPONSE)`, the single-flight gate (10_state.md R27). -/
def State.busy (s : State) : Bool := s.arb == .awaitingResponse

/-- `LISTEN = busy`, the response listener (10_state.md R28). -/
def State.listen (s : State) : Bool := s.busy

/-- `LINK = OPEN`: TICK and RXBYTE are acted upon (60_exceptions.md R216). -/
def State.isOpen (s : State) : Bool := s.link == .opened

/-- The frame-complete test `RXCNT >= 3 and RXCNT >= RXBUF[2]` (41_frame_codec.md R122). -/
def State.frameComplete (s : State) : Bool :=
  decide (Config.hdrLen ≤ s.rxcnt.toNat ∧ (s.rxbuf.byte 2).toNat ≤ s.rxcnt.toNat)

/-- The timeout test `TO_ACC >= t.timeout` (42_arbiter.md R147). -/
def State.timedOut (s : State) (t : Task) : Bool := decide (t.timeout ≤ s.toAcc)

/-- `|Q| >= QUEUE_DEPTH`, never with an unbounded queue (42_arbiter.md R145). -/
def State.queueFull (s : State) : Bool :=
  match s.cfg.queueDepth with
  | none => false
  | some d => decide (d ≤ s.q.length)

/-- The `changed` flag of a status record: `(LASTSTATUS = none) or (LASTSTATUS != p)` (42_arbiter.md R157). -/
def State.changed (s : State) (p : Bytes) : Bool :=
  s.lastStatus == none || s.lastStatus != some p

/-- The bytes of `TX` (10_state.md R35). -/
def txBytes (out : List Output) : Bytes :=
  out.flatMap fun
    | .tx _ f => f
    | .compl _ _ => []
    | .status _ _ => []
    | .pollError _ => []

/-- The records of `COMPL` (10_state.md R36). -/
def complRecords (out : List Output) : List (Nat × Verdict) :=
  out.filterMap fun
    | .tx _ _ => none
    | .compl tag v => some (tag, v)
    | .status _ _ => none
    | .pollError _ => none

/-- The records of `STATUS` (10_state.md R37). -/
def statusRecords (out : List Output) : List StatusRecord :=
  out.filterMap fun
    | .tx _ _ => none
    | .compl _ _ => none
    | .status c ch => some (.code c ch)
    | .pollError e => some (.pollError e)

/-- `TX`. -/
def State.tx (s : State) : Bytes := txBytes s.out

/-- `COMPL`. -/
def State.compl (s : State) : List (Nat × Verdict) := complRecords s.out

/-- `STATUS`. -/
def State.status (s : State) : List StatusRecord := statusRecords s.out

end Sys2Proof.Machine
end

