-- ==== Sys2Proof/Machine/Operands.lean ====
section
/-! DEFINITION. What the operations make of their operands: the Task a SUBMIT queues, the Task a Poll is, and the
verdict of a checksum. -/

namespace Sys2Proof.Machine

/-- The Task of an accepted SUBMIT (42_arbiter.md R143): the frame is computed now (20_memory.md R66). -/
def hostTask (c : Params) (tag : Nat) (p : Bytes) (timeoutMs : Nat) : Task :=
  { kind := .host tag, frame := frame c p, timeout := timeoutMs }

/-- The Task POLLSYNTH makes (42_arbiter.md R149). -/
def pollTask (c : Params) : Task :=
  { kind := .poll, frame := frame c c.pollPayload, timeout := c.pollTimeoutMs }

/-- Why a SUBMIT is refused at once, in the order of the tests of 42_arbiter.md R143; `none` when it is accepted. -/
def submitRefusal (s : State) (p : Bytes) : Option LinkError :=
  if ¬ inDomain p then some .payloadLength
  else if s.isOpen = false then some .connectionClosed
  else if s.queueFull then some .queueFull
  else none

end Sys2Proof.Machine
end

