-- ==== Sys2Proof/Machine/Ops.lean ====
section
/-! DEFINITION. The operations shared by the meanings: emitting, invoking a sink, ending a Task with success or an
error, tearing the link down, and the internal steps of TICK and RXBYTE. -/

namespace Sys2Proof.Machine

/-- The three outcomes of an operation. -/
abbrev Result := Host.Outcome State Fault Refusal

/-! ## Outputs -/

/-- Append one entry to the output history. -/
def emit (o : Output) (s : State) : State := { s with out := s.out ++ [o] }

/-- A checksum was computed inside another operation: `CRC` is between computations and holds a free value
(10_state.md R23, 93_implementation_defined.md U16; log entry 5). -/
def useCrc (s : State) : State := { s with crc := Config.freeCrc s.free, free := s.free + 1 }

/-- Build a frame and write it to the transport (30_encoding.md R79, 60_exceptions.md R227: it always succeeds). -/
def sendFrame (k : TxKind) (p : Bytes) (s : State) : State :=
  emit (.tx k (frame s.cfg p)) (useCrc s)

/-! ## Ending a Task -/

/-- `complete(t, err, p)`: invoke a Task's sink (42_arbiter.md R157). -/
def complete (t : Task) (v : Verdict) (s : State) : State :=
  match t.kind with
  | .host tag => emit (.compl tag v) s
  | .poll =>
    match v with
    | .ok p => emit (.status p (s.changed p)) { s with lastStatus := some p }
    | .error e => emit (.pollError e) s

/-- `t <- CUR; ARB <- IDLE; CUR <- none`, with the timeout released, as R210 and R224 of 60_exceptions.md
say of every Task-ending outcome. -/
def release (s : State) : State := { s with arb := .idle, cur := none, toArmed := false }

/-- Take the in-flight Task out and invoke its sink (42_arbiter.md R150, R153, R155, R156). -/
def endTask (v : Verdict) (s : State) : Result :=
  match s.cur with
  | none => .fault .noTaskInFlight
  | some t => .next (complete t v (release s))

/-- `raise E`, the block's exception entry (60_exceptions.md R210): the in-flight Task ends with the error. There is no
return from it (R213): the arbiter is simply idle. -/
def raise (e : LinkError) (s : State) : Result := endTask (.error e) s

/-- A SUBMIT refused at once: one record, nothing else (42_arbiter.md R143 to R145). -/
def refuseSubmit (tag : Nat) (e : LinkError) (s : State) : State := emit (.compl tag (.error e)) s

/-! ## The assembler and the link -/

/-- `DEC.CLEAR`: `RXCNT <- 0`, the buffer left as it is (41_frame_codec.md R125). -/
def clearAssembler (s : State) : State := { s with rxcnt := 0 }

/-- The registers after a tear-down, before any sink is invoked (42_arbiter.md R142). -/
def disconnect (s : State) : State :=
  clearAssembler
    { s with link := .closed, arb := .idle, cur := none, q := [], toArmed := false, toAcc := 0 }

/-- Fail Tasks in order with `ConnectionClosed` (42_arbiter.md R142). -/
def failAll : List Task → State → State
  | [], s => s
  | u :: us, s => failAll us (complete u (.error .connectionClosed) s)

/-- Fail the Task taken from `CUR`, if there was one. -/
def failCur (e : LinkError) (t : Option Task) (s : State) : State :=
  match t with
  | none => s
  | some t => complete t (.error e) s

/-- CLOSE and TERR, which differ in the error of the in-flight Task (42_arbiter.md R142, R160). -/
def tearDown (e : LinkError) (s : State) : State :=
  if s.isOpen then failAll s.q (failCur e s.cur (disconnect s)) else s

/-! ## The steps of TICK -/

/-- `DISPATCH(t)` (42_arbiter.md R148). -/
def dispatch (t : Task) (s : State) : State :=
  emit (.tx .req t.frame)
    { s with arb := .awaitingResponse, cur := some t, toAcc := 0, toArmed := t.timeout != 0 }

/-- `TIMEOUT` (42_arbiter.md R150). -/
def timeout (s : State) : Result := raise .requestTimeout s

/-- `TICK.ACCOUNT` (42_arbiter.md R147). -/
def tickAccount (s : State) : Result :=
  if s.toArmed then
    match s.cur with
    | none => .fault .noTaskInFlight
    | some t =>
      let s' := { s with toAcc := s.toAcc + s.cfg.tickMs }
      if s'.timedOut t then timeout s' else .next s'
  else .next s

/-- Make a Poll and dispatch it in the same TICK (42_arbiter.md R149). -/
def dispatchPoll (s : State) : Result :=
  if inDomain s.cfg.pollPayload then .next (dispatch (pollTask s.cfg) (useCrc s))
  else .fault .outsideDomain

/-! ## The steps of RXBYTE -/

/-- `RX.BAD` (42_arbiter.md R153): the NAK frame, then the error. -/
def rxBad (s : State) : Result := raise .checksumMismatch (sendFrame .nak nakPayload s)

/-- `RX.ACK` (42_arbiter.md R154): no further action. -/
def rxAck (s : State) : Result := .next s

/-- `RX.NAK` (42_arbiter.md R155). -/
def rxNak (s : State) : Result := raise .peerRejected s

/-- `RX.DATA(p)` (42_arbiter.md R156): the ACK frame, then success. -/
def rxData (p : Bytes) (s : State) : Result := endTask (.ok p) (sendFrame .ack ackPayload s)

/-- What the arbiter does with a frame of a class. -/
def rxClass (c : FrameClass) (s : State) : Result :=
  match c with
  | .bad => rxBad s
  | .ack => rxAck s
  | .nak => rxNak s
  | .data p => rxData p s

/-- The state in which a frame taken while busy is classified: the timeout is disarmed, and the checksum was computed
if the frame has room for one (42_arbiter.md R151, 30_encoding.md R90). -/
def takeFrame (f : Bytes) (s : State) : State :=
  let s' := { s with toArmed := false }
  if f.length < Config.minFrame then s' else useCrc s'

/-- `RXFRAME(f)` (42_arbiter.md R151); while idle the frame is dropped (`RX.IDLE`, R152). -/
def rxFrame (f : Bytes) (s : State) : Result :=
  if s.busy then rxClass (classify s.cfg.poly f) (takeFrame f s) else .next s

/-- `DEC.EMIT` (41_frame_codec.md R123): copy the frame out, empty the assembler, hand the frame over. -/
def decEmit (s : State) : Result :=
  match s.rxbuf.read 0 s.rxcnt.toNat with
  | none => .fault .rxbufRange
  | some f => rxFrame f (clearAssembler s)

/-- `RXBUF[RXCNT] <- b; RXCNT <- RXCNT + 1` (41_frame_codec.md R122); `none` at offset 255, which does not exist. -/
def pushByte (b : Byte) (s : State) : Option State :=
  (s.rxbuf.write s.rxcnt.toNat [b]).map fun m => { s with rxbuf := m, rxcnt := s.rxcnt + 1 }

end Sys2Proof.Machine
end

