-- ==== Sys2Proof/Machine/Arbiter.lean ====
section
/-! DEFINITION. The meanings of the arbiter's internal steps, of the classes of a received frame and of the transmitted
frames, each run on its own (log entry 3). -/

namespace Sys2Proof.Machine

/-- TICK.ACCOUNT (42_arbiter.md R147). -/
def execTickAccount (s : State) : Result := tickAccount s

/-- DISPATCH (42_arbiter.md R148). -/
def execDispatch (t : Task) (s : State) : Result := .next (dispatch t s)

/-- POLLSYNTH (42_arbiter.md R149): it returns the Poll Task. -/
def execPollSynth (s : State) : Result :=
  if inDomain s.cfg.pollPayload then .next { useCrc s with ret := .task (pollTask s.cfg) }
  else .fault .outsideDomain

/-- TIMEOUT (42_arbiter.md R150). -/
def execTimeout (s : State) : Result := timeout s

/-- RXFRAME (42_arbiter.md R151). -/
def execRxFrame (f : Bytes) (s : State) : Result := rxFrame f s

/-- COMPLETE (42_arbiter.md R157). -/
def execComplete (t : Task) (v : Verdict) (s : State) : Result := .next (complete t v s)

/-- RX.IDLE (42_arbiter.md R152): the frame is dropped. -/
def execRxIdle (_f : Bytes) (s : State) : Result := .next s

/-- RX.BAD (42_arbiter.md R153). -/
def execRxBad (s : State) : Result := rxBad s

/-- RX.ACK (42_arbiter.md R154). -/
def execRxAck (s : State) : Result := rxAck s

/-- RX.NAK (42_arbiter.md R155). -/
def execRxNak (s : State) : Result := rxNak s

/-- RX.DATA (42_arbiter.md R156). -/
def execRxData (p : Bytes) (s : State) : Result := rxData p s

/-- TX.REQ (30_encoding.md R79): the request frame of a payload is written to the transport. -/
def execTxReq (p : Bytes) (s : State) : Result :=
  if inDomain p then .next (sendFrame .req p s) else .fault .outsideDomain

/-- TX.ACK (30_encoding.md R79). -/
def execTxAck (s : State) : Result := .next (sendFrame .ack ackPayload s)

/-- TX.NAK (30_encoding.md R79). -/
def execTxNak (s : State) : Result := .next (sendFrame .nak nakPayload s)

end Sys2Proof.Machine
end

