-- ==== Sys2Proof/Machine/ChecksumUnit.lean ====
section
/-! DEFINITION. The meanings of the checksum unit's operations, each run on its own (log entries 3, 4 and 5). CRC.INIT,
CRC.BIT, CRC.BYTE and CRC.GEN leave in `CRC` the value their rules give the register; CRC.APPEND and CRC.VERIFY are past
their computation when they answer, so `CRC` holds a free value. -/

namespace Sys2Proof.Machine

/-- CRC.INIT: `CRC <- 0x0000` (40_checksum.md R100). -/
def execCrcInit (s : State) : Result := .next { s with crc := 0x0000 }

/-- CRC.BIT: one step of the register (40_checksum.md R102). -/
def execCrcBit (c : Word16) (s : State) : Result :=
  .next { s with crc := crcBit s.cfg.poly c, ret := .word (crcBit s.cfg.poly c) }

/-- CRC.BYTE: one byte into the register (40_checksum.md R101). -/
def execCrcByte (c : Word16) (b : Byte) (s : State) : Result :=
  .next { s with crc := crcByte s.cfg.poly c b, ret := .word (crcByte s.cfg.poly c b) }

/-- CRC.GEN: `crc16(s)`; "the result is the 16-bit register itself" (40_checksum.md R103). -/
def execCrcGen (bs : Bytes) (s : State) : Result :=
  .next { s with crc := crc16 s.cfg.poly bs, ret := .word (crc16 s.cfg.poly bs) }

/-- CRC.APPEND: it returns the string with its two checksum bytes (40_checksum.md R104). -/
def execCrcAppend (h : Bytes) (s : State) : Result :=
  .next { useCrc s with ret := .bytes (crcAppend s.cfg.poly h) }

/-- CRC.VERIFY: it returns the verdict of the verifier (40_checksum.md R105). -/
def execCrcVerify (f : Bytes) (s : State) : Result :=
  if Config.minFrame ≤ f.length then .next { useCrc s with ret := .flag (crcVerify s.cfg.poly f) }
  else .fault .outsideDomain

end Sys2Proof.Machine
end

