-- ==== Sys2Proof/Machine/Codec.lean ====
section
/-! DEFINITION. The meanings of the frame codec's operations, each run on its own (log entries 3 and 4). -/

namespace Sys2Proof.Machine

/-- ENC.FRAME (41_frame_codec.md R120): it returns `frame(p)`. -/
def execEncFrame (p : Bytes) (s : State) : Result :=
  if inDomain p then .next { useCrc s with ret := .bytes (frame s.cfg p) } else .fault .outsideDomain

/-- DEC.EMIT (41_frame_codec.md R123). -/
def execDecEmit (s : State) : Result := decEmit s

/-- DEC.PAYLOAD (41_frame_codec.md R124): it returns `payload(f)`. -/
def execDecPayload (f : Bytes) (s : State) : Result :=
  if Config.minFrame ≤ f.length then .next { s with ret := .bytes (payload f) } else .fault .outsideDomain

/-- DEC.CLEAR (41_frame_codec.md R125). -/
def execDecClear (s : State) : Result := .next (clearAssembler s)

end Sys2Proof.Machine
end

