-- ==== Sys2Proof/Machine/Events.lean ====
section
/-! DEFINITION. The meanings of the input events and of the outcomes of SUBMIT. -/

namespace Sys2Proof.Machine

/-- RESET (70_reset_and_hazards.md R240): nothing is emitted, pending Tasks vanish. `CRC`, unspecified after RESET
(10_state.md R41), takes a free value (log entry 5); `RXBUF` is left as it is (41_frame_codec.md R125, log entry 21). -/
def execReset (s : State) : Result :=
  .next (useCrc (clearAssembler
    { s with link := .closed, arb := .idle, cur := none, q := [], toArmed := false, toAcc := 0, lastStatus := none }))

/-- OPEN (42_arbiter.md R141); writing OPEN over OPEN changes nothing. -/
def execOpenLink (s : State) : Result := .next { s with link := .opened }

/-- CLOSE (42_arbiter.md R142). -/
def execCloseLink (s : State) : Result := .next (tearDown .connectionClosed s)

/-- TERR (42_arbiter.md R160). -/
def execTerr (s : State) : Result := .next (tearDown .transportError s)

/-- SUBMIT (42_arbiter.md R143). -/
def execSubmit (tag : Nat) (p : Bytes) (timeoutMs : Nat) (s : State) : Result :=
  match submitRefusal s p with
  | some e => .next (refuseSubmit tag e s)
  | none => .next (useCrc { s with q := s.q ++ [hostTask s.cfg tag p timeoutMs] })

/-- TICK (42_arbiter.md R146): nothing while closed; accounting while busy; else one dispatch. -/
def execTick (s : State) : Result :=
  if s.isOpen then
    if s.busy then tickAccount s
    else match s.q with
      | [] => dispatchPoll s
      | t :: q => .next (dispatch t { s with q := q })
  else .next s

/-- RXBYTE (41_frame_codec.md R122). -/
def execRxbyte (b : Byte) (s : State) : Result :=
  if s.isOpen then
    match pushByte b s with
    | none => .fault .rxbufRange
    | some s' => if s'.frameComplete then decEmit s' else .next s'
  else .next s

/-- EV.RESERVED (30_encoding.md R81): no effect on state or outputs. -/
def execEvReserved (_ev : BitVec 4) (s : State) : Result := .next s

/-- SUBMIT.PAYLOADLENGTH (42_arbiter.md R144): the refusal of a SUBMIT whose payload has no byte or more than 250;
run on its own with another payload it stops (log entry 15). -/
def execSubmitPayloadLength (tag : Nat) (p : Bytes) (_timeoutMs : Nat) (s : State) : Result :=
  if submitRefusal s p = some .payloadLength then .next (refuseSubmit tag .payloadLength s)
  else .fault .conditionNotMet

/-- SUBMIT.QUEUEFULL (42_arbiter.md R145): the refusal of a SUBMIT that finds a finite queue full; run on its own in a
state where SUBMIT has another outcome it stops (log entry 15). -/
def execSubmitQueueFull (tag : Nat) (p : Bytes) (_timeoutMs : Nat) (s : State) : Result :=
  if submitRefusal s p = some .queueFull then .next (refuseSubmit tag .queueFull s)
  else .fault .conditionNotMet

end Sys2Proof.Machine
end

