-- ==== Sys2Proof/Machine/Dispatch.lean ====
section
/-! DEFINITION. The meaning of each operation of spec/opcode_table.json, in the table's order. -/

namespace Sys2Proof.Machine

def exec (i : Instr) (s : State) : Host.Outcome State Fault Refusal :=
  match i with
  | .reset => Sys2Proof.Machine.execReset s
  | .openLink => Sys2Proof.Machine.execOpenLink s
  | .closeLink => Sys2Proof.Machine.execCloseLink s
  | .terr => Sys2Proof.Machine.execTerr s
  | .submit tag p timeoutMs => Sys2Proof.Machine.execSubmit tag p timeoutMs s
  | .tick => Sys2Proof.Machine.execTick s
  | .rxbyte b => Sys2Proof.Machine.execRxbyte b s
  | .evReserved ev => Sys2Proof.Machine.execEvReserved ev s
  | .submitPayloadLength tag p timeoutMs => Sys2Proof.Machine.execSubmitPayloadLength tag p timeoutMs s
  | .submitQueueFull tag p timeoutMs => Sys2Proof.Machine.execSubmitQueueFull tag p timeoutMs s
  | .tickAccount => Sys2Proof.Machine.execTickAccount s
  | .dispatch t => Sys2Proof.Machine.execDispatch t s
  | .pollSynth => Sys2Proof.Machine.execPollSynth s
  | .timeout => Sys2Proof.Machine.execTimeout s
  | .rxFrame f => Sys2Proof.Machine.execRxFrame f s
  | .complete t v => Sys2Proof.Machine.execComplete t v s
  | .rxIdle f => Sys2Proof.Machine.execRxIdle f s
  | .rxBad => Sys2Proof.Machine.execRxBad s
  | .rxAck => Sys2Proof.Machine.execRxAck s
  | .rxNak => Sys2Proof.Machine.execRxNak s
  | .rxData p => Sys2Proof.Machine.execRxData p s
  | .txReq p => Sys2Proof.Machine.execTxReq p s
  | .txAck => Sys2Proof.Machine.execTxAck s
  | .txNak => Sys2Proof.Machine.execTxNak s
  | .encFrame p => Sys2Proof.Machine.execEncFrame p s
  | .decEmit => Sys2Proof.Machine.execDecEmit s
  | .decPayload f => Sys2Proof.Machine.execDecPayload f s
  | .decClear => Sys2Proof.Machine.execDecClear s
  | .crcInit => Sys2Proof.Machine.execCrcInit s
  | .crcBit c => Sys2Proof.Machine.execCrcBit c s
  | .crcByte c b => Sys2Proof.Machine.execCrcByte c b s
  | .crcGen bs => Sys2Proof.Machine.execCrcGen bs s
  | .crcAppend h => Sys2Proof.Machine.execCrcAppend h s
  | .crcVerify f => Sys2Proof.Machine.execCrcVerify f s

end Sys2Proof.Machine
end

