-- ==== Sys2Proof/Machine/Port.lean ====
section
/-! DEFINITION. How an operation comes to run: fetching the next record, presenting events to the block, and the order
of coincident events (60_exceptions.md R220). -/

namespace Sys2Proof.Machine

/-- What `step` finds to do next. -/
inductive Fetched where
  /-- Nothing is presented: the block waits (70_reset_and_hazards.md R241). -/
  | waiting
  /-- An operation, and the state without its record. -/
  | operation (i : Instr) (s : State)
  /-- A record that is refused. -/
  | refused (r : Refusal)
  deriving DecidableEq, Repr

/-- An operation of the probe: any row of the table (log entry 3). -/
def fetchProbe (record : Bytes) (s : State) : Fetched :=
  match decode record with
  | .error e => .refused (.undecodable e)
  | .ok (i, _) => .operation i { s with probe := none }

/-- An operation of the agents: an input event (00_scope.md R9). -/
def fetchEvent (record : Bytes) (rest : List Bytes) (s : State) : Fetched :=
  match decode record with
  | .error e => .refused (.undecodable e)
  | .ok (i, _) => if i.isEvent then .operation i { s with input := rest } else .refused .notAnEvent

/-- The next operation: the probe's if it is filled, else the first input event's. -/
def fetch (s : State) : Fetched :=
  match s.probe with
  | some record => fetchProbe record s
  | none =>
    match s.input with
    | [] => .waiting
    | record :: rest => fetchEvent record rest s

/-- The agents present events, to be processed in this order after those already presented (20_memory.md R62). -/
def State.present (s : State) (events : List Instr) : State :=
  { s with input := s.input ++ events.map encode }

/-- The priority of an event among those presented in one cycle, 0 first (60_exceptions.md R220); a reserved event code,
which has no effect, comes last (log entry 19, DESIGN CHOICE, safe). -/
def priority : Instr → Nat
  | .reset => 0
  | .openLink => 1
  | .closeLink => 2
  | .terr => 3
  | .rxbyte _ => 4
  | .tick => 5
  | .submit _ _ _ => 6
  | _ => 7

/-- The order in which the events of one cycle are processed (60_exceptions.md R220); events of one priority keep the
order in which they are given. -/
def serialise (events : List Instr) : List Instr :=
  (List.range 8).flatMap fun k => events.filter fun i => priority i == k

/-- The agents present the events of one cycle together (60_exceptions.md R220). -/
def State.presentCycle (s : State) (events : List Instr) : State := s.present (serialise events)

end Sys2Proof.Machine
end

