-- ==== Sys2Proof/Machine/Step.lean ====
section
/-! DEFINITION. One step of the machine, and the placing of a word of the operation table where the next step takes it. -/

namespace Sys2Proof.Machine

/-- One step: the next operation, run to completion (20_memory.md R62). With nothing presented the block waits and the
state does not change (log entry 1). -/
def step (s : State) : Host.Outcome State Fault Refusal :=
  match fetch s with
  | .waiting => .next s
  | .operation i s' => exec i s'
  | .refused r => .refused r

/-- The state in which the next step runs the operation of a word of spec/opcode_table.json (log entry 18): an event
word becomes the first input record, any other row's record fills the probe. -/
def State.withFetchWord (s : State) (nbits w : Nat) : State :=
  if nbits ≤ 8 then { s with probe := none, input := eventRecord w :: s.input }
  else { s with probe := some ((decodeTableWord nbits w).elim [] encode) }

end Sys2Proof.Machine
end

