-- ==== Sys2Proof/Safety.lean ====
section
/-! DEFINITION. What statements about the block are made of: the invariant of 10_state.md R39, sequences of operations,
and what the output history says of requests and Tasks. -/

namespace Sys2Proof.Machine

/-- A frame the encoder makes: `frame(p)` for a payload in its domain (30_encoding.md R76, R79). -/
abbrev encoded (c : Params) (f : Bytes) : Prop := ∃ p, inDomain p ∧ f = frame c p

/-- The invariant of the block between events (10_state.md R39 items 1 to 6; item 7 says what the block does not do),
with the canonical form of `RXBUF`, the legal configuration of 00_scope.md R7, and nothing in the model's probe. -/
structure BlockInv (s : State) : Prop where
  /-- R39 item 1. -/
  busy_iff : s.busy = true ↔ s.cur ≠ none
  /-- R39 item 2. -/
  armed : s.toArmed = true → ∃ t, s.cur = some t ∧ t.timeout ≠ 0 ∧ s.toAcc < t.timeout
  /-- R29: `TO_ACC` is a multiple of `TICK_MS`. -/
  acc : s.cfg.tickMs ∣ s.toAcc
  /-- R39 item 3. -/
  closed : s.link = .closed → s.busy = false ∧ s.q = [] ∧ s.rxcnt = 0 ∧ s.toArmed = false
  /-- R39 item 4, R22: the partial frame is not complete. -/
  assembler : s.frameComplete = false ∧ s.rxcnt.toNat ≤ 254
  /-- R39 item 5. -/
  queue : ∀ t ∈ s.q, (∃ tag, t.kind = .host tag) ∧ encoded s.cfg t.frame
  /-- The in-flight Task's frame is one the encoder made (R31). -/
  inflight : ∀ t, s.cur = some t → encoded s.cfg t.frame
  /-- R39 item 6, single flight (20_memory.md R63): the request frame of the Task in flight is the last one in the
  history, and after it stand only refusals of SUBMIT, whose errors end no Task: no request frame, no other frame, and
  no record of a sink. -/
  single_flight : ∀ t, s.cur = some t → ∃ before since, s.out = before ++ .tx .req t.frame :: since ∧
    ∀ o ∈ since, ∃ tag, o = .compl tag (.error .payloadLength) ∨ o = .compl tag (.error .queueFull)
  /-- Every transmitted frame is one the encoder made (30_encoding.md R79). -/
  sent : ∀ k f, Output.tx k f ∈ s.out → encoded s.cfg f
  /-- `RXBUF` is in canonical form. -/
  memory : s.rxbuf.wf = true
  /-- The configuration is legal. -/
  config : s.cfg.wf
  /-- Only events run (log entry 3). -/
  events : s.probe = none

/-- Operations run one after another, stopping at the first that does not answer a next state (20_memory.md R62). -/
def runAll : List Instr → State → Result
  | [], s => .next s
  | i :: is, s =>
    match exec i s with
    | .next s' => runAll is s'
    | .fault r => .fault r
    | .refused r => .refused r

/-- Steps taken one after another, stopping at the first that does not answer a next state (20_memory.md R62). -/
def runSteps : Nat → State → Result
  | 0, s => .next s
  | n + 1, s =>
    match step s with
    | .next s' => runSteps n s'
    | .fault r => .fault r
    | .refused r => .refused r

/-- The bytes of a chunk as consecutive RXBYTE events (20_memory.md R56). -/
def chunk (bs : Bytes) : List Instr := bs.map .rxbyte

/-- The tags of the host Tasks among some Tasks. -/
def hostTags (ts : List Task) : List Nat :=
  ts.filterMap fun t => match t.kind with
    | .host tag => some tag
    | .poll => none

/-- The tags of the host Tasks that have no completion record yet, in the order of their SUBMIT events. -/
def State.pendingTags (s : State) : List Nat := hostTags (s.cur.toList ++ s.q)

/-- The tags of the completion records, in order. -/
def State.doneTags (s : State) : List Nat := s.compl.map (·.1)

/-- The number of Poll Tasks without a status record. -/
def State.pendingPolls (s : State) : Nat :=
  ((s.cur.toList ++ s.q).filter fun t => t.kind == .poll).length

/-- The number of STATUS records. -/
def State.donePolls (s : State) : Nat := s.status.length

/-- Whether an entry of the history is a transmitted frame (10_state.md R35). -/
def Output.isTx : Output → Bool
  | .tx _ _ => true
  | .compl _ _ => false
  | .status _ _ => false
  | .pollError _ => false

/-- The record a Task's sink leaves, given `LASTSTATUS` before (42_arbiter.md R157; 30_encoding.md R83, R84). -/
def sinkRecord (last : Option Bytes) (t : Task) (v : Verdict) : Output :=
  match t.kind, v with
  | .host tag, v => .compl tag v
  | .poll, .ok p => .status p (last == none || last != some p)
  | .poll, .error e => .pollError e

/-- `LASTSTATUS` after a Task's sink was invoked (42_arbiter.md R157). -/
def statusAfter (last : Option Bytes) (t : Task) (v : Verdict) : Option Bytes :=
  match t.kind, v with
  | .host _, _ => last
  | .poll, .ok p => some p
  | .poll, .error _ => last

/-- The record of a Task that ends with an error, which does not depend on `LASTSTATUS` (42_arbiter.md R157). -/
def failureRecord (e : LinkError) (t : Task) : Output :=
  match t.kind with
  | .host tag => .compl tag (.error e)
  | .poll => .pollError e

/-- `RXBUF` after the byte `b` arrives on an open link (41_frame_codec.md R122). -/
def bufferAfter (s : State) (b : Byte) : Memory := s.rxbuf.set s.rxcnt.toNat b

/-- The frame that RXBYTE `b` completes, if it completes one (41_frame_codec.md R122, R123). -/
def completedFrame (s : State) (b : Byte) : Option Bytes :=
  if s.link = .opened ∧ 3 ≤ s.rxcnt.toNat + 1 ∧ ((bufferAfter s b).byte 2).toNat ≤ s.rxcnt.toNat + 1 then
    some ((bufferAfter s b).bytes 0 (s.rxcnt.toNat + 1))
  else none

/-- The size of the frame that starts a byte string, `max(3, L)` with `L` its third byte (41_frame_codec.md R127). -/
def frameSize (bs : Bytes) : Nat := max 3 (bs.getD 2 0).toNat

/-- A byte string with bit `j` of byte `k` flipped. -/
def flipBit (f : Bytes) (k j : Nat) : Bytes := f.set k (f.getD k 0 ^^^ BitVec.twoPow 8 j)

/-- Bytewise exclusive or of two strings of one length. -/
def xorBytes (a b : Bytes) : Bytes := List.zipWith (· ^^^ ·) a b

end Sys2Proof.Machine
end

