-- ==== Sys2Proof/Certificates/Slice0/Obligations.lean ====
section
/-! DEFINITION. The statements about the block, from the numbered rules of the specification. A value of `CRC` that the
rules leave open is quantified over (`∃ c n, … crc := c, free := n …`): no statement says what it is. -/

open Sys2Proof Sys2Proof.Machine

/-! ## Encodings -/

/-- Every well-formed operation is read back from its record, whatever follows it. The form of the records is the
model's (log entries 2 and 3). -/
def Obligations.DecodeInvertsEncode : Prop :=
  ∀ (i : Instr) (r : Bytes), i.wellFormed = true → decode (encode i ++ r) = .ok (i, r)

/-- The event-select codes of R81, each with operand bytes of zeros, and words written out from the encodings of the
table. The form of the records and the reading of a word are the model's (log entries 2 and 18), and the words of TX.ACK
and TX.NAK rest on the presumed SYNC, ADDR and POLY of log entry 7. -/
def Obligations.TableWordsDecode : Prop :=
  decodeTableWord 4 0 = some .reset ∧ decodeTableWord 4 1 = some .openLink ∧
  decodeTableWord 4 2 = some .closeLink ∧ decodeTableWord 4 3 = some .terr ∧
  decodeTableWord 4 4 = some (.submit 0 [] 0) ∧ decodeTableWord 4 5 = some .tick ∧
  decodeTableWord 4 6 = some (.rxbyte 0) ∧
  (∀ w, 7 ≤ w → w ≤ 15 → decodeTableWord 4 w = some (.evReserved (BitVec.ofNat 4 w))) ∧
  decodeTableWord 48 0x000006000000 = some .rxAck ∧ decodeTableWord 48 0x000006FF0000 = some .rxNak ∧
  decodeTableWord 48 0x02030600C282 = some .txAck ∧ decodeTableWord 48 0x020306FFBA8D = some .txNak ∧
  decode [0x04, 0x07, 0x01, 0x30, 0xE8, 0x07] = .ok (.submit 7 [0x30] 1000, []) ∧
  decode [0x06, 0x19] = .ok (.rxbyte 0x19, [])

/-- The class of every frame (R78): `body` is the header and payload, `x` and `y` the checksum bytes. -/
def Obligations.FrameClassByChecksumAndPayload : Prop :=
  ∀ poly : Word16,
    (∀ f : Bytes, f.length < 5 → classify poly f = .bad) ∧
    ∀ (body : Bytes) (x y : Byte), 3 ≤ body.length →
      classify poly (body ++ [x, y]) =
        if x ≠ lo8 (crc16 poly body) ∨ y ≠ hi8 (crc16 poly body) then .bad
        else if body.drop 3 = [0x00] then .ack
        else if body.drop 3 = [0xFF] then .nak
        else .data (body.drop 3)

/-- The error codes of R200: code 0 is `OK`, 1 to 8 are the errors, 9 to 15 are no error. -/
def Obligations.ErrorCodesAreTheTable : Prop :=
  (∀ p, (Verdict.ok p).code = 0) ∧
  LinkError.requestTimeout.code = 1 ∧ LinkError.checksumMismatch.code = 2 ∧ LinkError.peerRejected.code = 3 ∧
  LinkError.unrecognizedStatus.code = 4 ∧ LinkError.transportError.code = 5 ∧
  LinkError.connectionClosed.code = 6 ∧ LinkError.payloadLength.code = 7 ∧ LinkError.queueFull.code = 8 ∧
  (∀ e : LinkError, LinkError.ofCode e.code = some e) ∧
  ∀ c : BitVec 4, (c = 0 ∨ 9 ≤ c.toNat) → LinkError.ofCode c = none

/-! ## The checksum unit -/

/-- CRC.INIT (R100) clears the register; CRC.BIT (R102) is one step of it. That a function run on its own leaves its
value in `ret`, and in `CRC` where the rule computes it there, is the model's choice (log entries 3, 4 and 5), here and
in the statements about the other functions. -/
def Obligations.CrcInitAndCrcBit : Prop :=
  ∀ (c : Word16) (s : State),
    exec .crcInit s = .next { s with crc := 0x0000 } ∧
    exec (.crcBit c) s =
      if c.getLsbD 0 = true then
        .next { s with crc := (c >>> 1) ^^^ s.cfg.poly, ret := .word ((c >>> 1) ^^^ s.cfg.poly) }
      else .next { s with crc := c >>> 1, ret := .word (c >>> 1) }

/-- CRC.BYTE (R101): the byte into the low half, then eight steps of CRC.BIT (`ret`, `crc`: log entries 4 and 5). -/
def Obligations.CrcByteIsEightBitSteps : Prop :=
  ∀ (c : Word16) (b : Byte) (s : State),
    let step1 : Word16 → Word16 := fun c => if c.getLsbD 0 = true then (c >>> 1) ^^^ s.cfg.poly else c >>> 1
    let v := step1^[8] (c ^^^ b.setWidth 16)
    exec (.crcByte c b) s = .next { s with crc := v, ret := .word v }

/-- CRC.GEN (R103): the register starts at zero, takes the bytes in order, and is itself the result
(`ret`, `crc`: log entries 4 and 5). -/
def Obligations.CrcGenRunsFromZeroInOrder : Prop :=
  ∀ s : State,
    exec (.crcGen []) s = .next { s with crc := 0, ret := .word 0 } ∧
    ∀ (bs : Bytes) (b : Byte), ∃ v : Word16,
      exec (.crcGen bs) s = .next { s with crc := v, ret := .word v } ∧
      exec (.crcGen (bs ++ [b])) s = exec (.crcByte v b) s

/-- CRC.APPEND (R104): the string, then `lo8` and `hi8` of its checksum (`ret`, `crc`: log entries 4 and 5). -/
def Obligations.CrcAppendPutsLowByteFirst : Prop :=
  ∀ (h : Bytes) (s : State), ∃ c n, exec (.crcAppend h) s = .next { s with
    crc := c, free := n,
    ret := .bytes (h ++ [(crc16 s.cfg.poly h).extractLsb' 0 8, (crc16 s.cfg.poly h).extractLsb' 8 8]) }

/-- CRC.VERIFY (R105): both checksum bytes are compared with the checksum of all the bytes before them; a string of
fewer than 5 bytes is outside its domain and stops (log entry 11; `ret`, `crc`: log entries 4 and 5). -/
def Obligations.CrcVerifyComparesBothBytes : Prop :=
  ∀ s : State,
    (∀ (body : Bytes) (x y : Byte), 3 ≤ body.length → ∃ c n,
      exec (.crcVerify (body ++ [x, y])) s = .next { s with
        crc := c, free := n,
        ret := .flag (decide (lo8 (crc16 s.cfg.poly body) = x ∧ hi8 (crc16 s.cfg.poly body) = y)) }) ∧
    ∀ f : Bytes, f.length < 5 → exec (.crcVerify f) s = .fault .outsideDomain

/-- Linearity (R108 item 1), and leading zero bytes are invisible (R108 item 2). -/
def Obligations.ChecksumIsLinearAndSkipsLeadingZeros : Prop :=
  ∀ poly : Word16,
    (∀ a b : Bytes, a.length = b.length → crc16 poly (xorBytes a b) = crc16 poly a ^^^ crc16 poly b) ∧
    ∀ (n : Nat) (s : Bytes), crc16 poly (List.replicate n 0x00 ++ s) = crc16 poly s

/-- The residue law (R108 item 3): running the register over a good string gives zero for every polynomial, and with
bit 15 of the polynomial set a zero residue means a good string. -/
def Obligations.ZeroResidueMeansVerified : Prop :=
  ∀ (poly : Word16) (h : Bytes),
    crc16 poly (crcAppend poly h) = 0 ∧
    (poly.getLsbD 15 = true → ∀ x y : Byte, crc16 poly (h ++ [x, y]) = 0 → crcVerify poly (h ++ [x, y]) = true)

/-- What the generator and verifier pair must do (R109): every generated string verifies, and with bit 15 of the
polynomial set flipping any single bit of the string or its checksum makes verification fail. -/
def Obligations.SingleBitCorruptionIsDetected : Prop :=
  ∀ (poly : Word16) (b : Bytes),
    crcVerify poly (crcAppend poly b) = true ∧
    (poly.getLsbD 15 = true → ∀ k j, k < (crcAppend poly b).length → j < 8 →
      crcVerify poly (flipBit (crcAppend poly b) k j) = false)

/-- The table-driven form (R107) equals CRC.BYTE: `(c >> 8) ^ T[(c ^ b) & 0xFF]` with `T[i] = CRC.BYTE(0, i)`. -/
def Obligations.TableDrivenFormAgrees : Prop :=
  ∀ (poly c : Word16) (b : Byte),
    crcByte poly c b = (c >>> 8) ^^^ crcByte poly 0 ((c ^^^ b.setWidth 16).setWidth 8)

/-! ## The frame codec -/

/-- ENC.FRAME (R120): the bytes of the frame; a payload outside 1 to 250 bytes is outside its domain and stops
(log entry 11; `ret`, `crc`: log entries 4 and 5). -/
def Obligations.EncFrameBuildsTheFrame : Prop :=
  ∀ (p : Bytes) (s : State),
    (1 ≤ p.length → p.length ≤ 250 → ∃ c n, exec (.encFrame p) s = .next { s with
      crc := c, free := n,
      ret := .bytes (crcAppend s.cfg.poly ([s.cfg.sync, s.cfg.addr, BitVec.ofNat 8 (p.length + 5)] ++ p)) }) ∧
    (p.length = 0 ∨ 250 < p.length → exec (.encFrame p) s = .fault .outsideDomain)

/-- The frame invariant (R121): Length is header, payload and checksum together and the actual size, and the frame
verifies. -/
def Obligations.EncodedFramesHaveTheirLengthAndVerify : Prop :=
  ∀ (c : Params) (p : Bytes), 1 ≤ p.length → p.length ≤ 250 →
    (frame c p).length = 3 + p.length + 2 ∧ ((frame c p).getD 2 0).toNat = 3 + p.length + 2 ∧
    crcVerify c.poly (frame c p) = true

/-- DEC.PAYLOAD (R124): what stands between the 3-byte header and the 2-byte checksum; fewer than 5 bytes are outside
its domain and stop (log entry 11; `ret`: log entry 4). -/
def Obligations.DecPayloadStripsHeaderAndChecksum : Prop :=
  ∀ s : State,
    (∀ h p ck : Bytes, h.length = 3 → ck.length = 2 →
      exec (.decPayload (h ++ p ++ ck)) s = .next { s with ret := .bytes p }) ∧
    ∀ f : Bytes, f.length < 5 → exec (.decPayload f) s = .fault .outsideDomain

/-- DEC.CLEAR (R125): only `RXCNT` is written. -/
def Obligations.DecClearZeroesTheCount : Prop :=
  ∀ s : State, exec .decClear s = .next { s with rxcnt := 0 }

/-- RXBYTE (R122): ignored on a closed link; else the byte is stored at `RXCNT`, and the frame-complete test decides
whether DEC.EMIT follows. R22 has `RXCNT` at most 254 between events. -/
def Obligations.RxbyteStoresAndTestsForCompletion : Prop :=
  ∀ (s : State) (b : Byte),
    (s.link = .closed → exec (.rxbyte b) s = .next s) ∧
    (s.link = .opened → s.rxcnt.toNat ≤ 254 →
      let s' := { s with rxbuf := s.rxbuf.set s.rxcnt.toNat b, rxcnt := s.rxcnt + 1 }
      exec (.rxbyte b) s =
        if 3 ≤ s'.rxcnt.toNat ∧ (s'.rxbuf.byte 2).toNat ≤ s'.rxcnt.toNat then exec .decEmit s' else .next s')

/-- DEC.EMIT (R123): the first `RXCNT` bytes go to RXFRAME as one frame, with the assembler already empty. -/
def Obligations.DecEmitHandsTheBufferOver : Prop :=
  ∀ s : State,
    exec .decEmit s = exec (.rxFrame (s.rxbuf.bytes 0 s.rxcnt.toNat)) { s with rxcnt := 0 }

/-- DEC.EMIT and RXFRAME answer whenever the arbiter is idle (the frame is dropped, R152) or a Task is in flight. -/
def Obligations.FramesAreAlwaysConsumed : Prop :=
  ∀ (s : State) (f : Bytes),
    (s.arb = .idle → exec (.rxFrame f) s = .next s ∧ exec .decEmit s = .next { s with rxcnt := 0 }) ∧
    (s.cur ≠ none → ∃ t t', exec (.rxFrame f) s = .next t ∧ exec .decEmit s = .next t' ∧ t'.rxcnt = 0)

/-- The assembler cuts the stream into frames of `max(3, L)` bytes, `L` the third byte (R127): from an empty assembler
on an open link, the bytes before the last only fill the buffer, and the last one hands the whole frame over. -/
def Obligations.StreamIsCutByTheThirdByte : Prop :=
  ∀ (s : State) (bs : Bytes), s.link = .opened → s.rxcnt = 0 → s.rxbuf.wf = true → bs.length = frameSize bs →
    (∀ k, k < bs.length → ∃ m,
      runAll (chunk (bs.take k)) s = .next { s with rxbuf := m, rxcnt := BitVec.ofNat 8 k }) ∧
    ∃ m, m.wf = true ∧ runAll (chunk bs) s = exec (.rxFrame bs) { s with rxbuf := m, rxcnt := 0 }

/-- The round trip (R130): the bytes of `frame(p)`, fed to an empty assembler, emit exactly one frame, at the last byte,
equal to `frame(p)`, and leave the assembler empty; its payload is `p` and it verifies. -/
def Obligations.FrameRoundTrip : Prop :=
  ∀ (s : State) (p : Bytes), s.link = .opened → s.rxcnt = 0 → s.rxbuf.wf = true →
    1 ≤ p.length → p.length ≤ 250 →
    (∀ k, k < (frame s.cfg p).length → ∃ m,
      runAll (chunk ((frame s.cfg p).take k)) s = .next { s with rxbuf := m, rxcnt := BitVec.ofNat 8 k }) ∧
    (∃ m, runAll (chunk (frame s.cfg p)) s = exec (.rxFrame (frame s.cfg p)) { s with rxbuf := m, rxcnt := 0 }) ∧
    (∀ t, runAll (chunk (frame s.cfg p)) s = .next t → t.rxcnt = 0) ∧
    payload (frame s.cfg p) = p ∧ crcVerify s.cfg.poly (frame s.cfg p) = true

/-- Concatenation (R132), in whatever chunks the transport delivers the bytes (R131): from an empty assembler on an open
link, the bytes of `frame(p₁) ++ frame(p₂)` are RXFRAME of `frame(p₁)` and, from the state `t` that answers, RXFRAME of
`frame(p₂)`, with nothing but the buffer written between the two. -/
def Obligations.ConcatenatedFramesAreEmittedInTurn : Prop :=
  ∀ (s : State) (p₁ p₂ : Bytes) (chunks : List Bytes), s.link = .opened → s.rxcnt = 0 → s.rxbuf.wf = true →
    1 ≤ p₁.length → p₁.length ≤ 250 → 1 ≤ p₂.length → p₂.length ≤ 250 →
    chunks.flatten = frame s.cfg p₁ ++ frame s.cfg p₂ →
    ∃ m, runAll (chunk (frame s.cfg p₁)) s = exec (.rxFrame (frame s.cfg p₁)) { s with rxbuf := m, rxcnt := 0 } ∧
      ∀ t, exec (.rxFrame (frame s.cfg p₁)) { s with rxbuf := m, rxcnt := 0 } = .next t →
        ∃ m', runAll (chunks.flatMap chunk) s =
          exec (.rxFrame (frame s.cfg p₂)) { t with rxbuf := m', rxcnt := 0 }

/-! ## Link events and submission -/

/-- RESET (R240): from any state, all of the block's registers at their reset values, and nothing emitted. That
RESET leaves the bytes of `RXBUF` (R125) and the configuration as they are is log entry 21. -/
def Obligations.ResetClearsTheBlock : Prop :=
  ∀ s : State, ∃ c n, exec .reset s = .next { s with
    link := .closed, arb := .idle, cur := none, q := [], toArmed := false, toAcc := 0, rxcnt := 0,
    lastStatus := none, crc := c, free := n }

/-- The state after reset (R41). -/
def Obligations.ResetStateValues : Prop :=
  State.reset.link = .closed ∧ State.reset.arb = .idle ∧ State.reset.busy = false ∧ State.reset.cur = none ∧
  State.reset.q = [] ∧ State.reset.toArmed = false ∧ State.reset.toAcc = 0 ∧ State.reset.rxcnt = 0 ∧
  State.reset.lastStatus = none ∧ State.reset.tx = [] ∧ State.reset.compl = [] ∧ State.reset.status = []

/-- OPEN (R141) opens the link, writes nothing else and emits nothing; over an open link it changes nothing. -/
def Obligations.OpenOpensTheLink : Prop :=
  ∀ s : State, exec .openLink s = .next { s with link := .opened } ∧
    (s.link = .opened → exec .openLink s = .next s)

/-- CLOSE (R142): on an open link every Task is failed with ConnectionClosed, the in-flight one first; `LASTSTATUS` is
kept and nothing is transmitted. -/
def Obligations.CloseFailsEveryTask : Prop :=
  ∀ s : State,
    (s.link = .closed → exec .closeLink s = .next s) ∧
    (s.link = .opened → exec .closeLink s = .next { s with
      link := .closed, arb := .idle, cur := none, q := [], toArmed := false, toAcc := 0, rxcnt := 0,
      out := s.out ++ s.cur.toList.map (failureRecord .connectionClosed) ++
        s.q.map (failureRecord .connectionClosed) })

/-- TERR (R160): as CLOSE, with TransportError for the in-flight Task. -/
def Obligations.TransportErrorFailsEveryTask : Prop :=
  ∀ s : State,
    (s.link = .closed → exec .terr s = .next s) ∧
    (s.link = .opened → exec .terr s = .next { s with
      link := .closed, arb := .idle, cur := none, q := [], toArmed := false, toAcc := 0, rxcnt := 0,
      out := s.out ++ s.cur.toList.map (failureRecord .transportError) ++
        s.q.map (failureRecord .connectionClosed) })

/-- SUBMIT (R143): the three refusals in their order, each one record and nothing else; else one Task at the tail of the
queue with its frame computed now. -/
def Obligations.SubmitQueuesOrRefuses : Prop :=
  ∀ (s : State) (tag : Nat) (p : Bytes) (ms : Nat),
    if p.length < 1 ∨ 250 < p.length then
      exec (.submit tag p ms) s = .next { s with out := s.out ++ [.compl tag (.error .payloadLength)] }
    else if s.link = .closed then
      exec (.submit tag p ms) s = .next { s with out := s.out ++ [.compl tag (.error .connectionClosed)] }
    else if ∃ d, s.cfg.queueDepth = some d ∧ d ≤ s.q.length then
      exec (.submit tag p ms) s = .next { s with out := s.out ++ [.compl tag (.error .queueFull)] }
    else ∃ c n, exec (.submit tag p ms) s = .next { s with
      q := s.q ++ [{ kind := .host tag, frame := frame s.cfg p, timeout := ms }], crc := c, free := n }

/-- SUBMIT.PAYLOADLENGTH (R144) and SUBMIT.QUEUEFULL (R145): each row completes as SUBMIT does under its condition, with
one record and no Task; with an unbounded queue there is no QueueFull. -/
def Obligations.SubmitRefusalRows : Prop :=
  ∀ (s : State) (tag : Nat) (p : Bytes) (ms : Nat),
    (p.length = 0 ∨ 250 < p.length →
      exec (.submitPayloadLength tag p ms) s =
        .next { s with out := s.out ++ [.compl tag (.error .payloadLength)] } ∧
      exec (.submit tag p ms) s = exec (.submitPayloadLength tag p ms) s) ∧
    (∀ d, s.cfg.queueDepth = some d → d ≤ s.q.length → 1 ≤ p.length → p.length ≤ 250 → s.link = .opened →
      exec (.submitQueueFull tag p ms) s = .next { s with out := s.out ++ [.compl tag (.error .queueFull)] } ∧
      exec (.submit tag p ms) s = exec (.submitQueueFull tag p ms) s) ∧
    (s.cfg.queueDepth = none →
      exec (.submit tag p ms) s ≠ .next { s with out := s.out ++ [.compl tag (.error .queueFull)] })

/-- EV.RESERVED (R81): no effect on state or outputs. -/
def Obligations.ReservedEventsDoNothing : Prop :=
  ∀ (ev : BitVec 4) (s : State), 7 ≤ ev.toNat → exec (.evReserved ev) s = .next s

/-- A closed link masks TICK and RXBYTE and fails every SUBMIT that could be framed (R216, R241). -/
def Obligations.ClosedLinkIsInert : Prop :=
  ∀ s : State, s.link = .closed →
    exec .tick s = .next s ∧ (∀ b, exec (.rxbyte b) s = .next s) ∧
    ∀ tag p ms, 1 ≤ p.length → p.length ≤ 250 →
      exec (.submit tag p ms) s = .next { s with out := s.out ++ [.compl tag (.error .connectionClosed)] }

/-! ## The tick -/

/-- TICK on an open idle link (R146, R148): with a queued Task, that Task is dispatched and no other. -/
def Obligations.TickDispatchesTheOldestTask : Prop :=
  ∀ (s : State) (t : Task) (q : List Task), s.link = .opened → s.arb = .idle → s.q = t :: q →
    exec .tick s = .next { s with
      q := q, arb := .awaitingResponse, cur := some t, toAcc := 0, toArmed := decide (t.timeout ≠ 0),
      out := s.out ++ [.tx .req t.frame] }

/-- TICK on an open idle link with an empty queue (R146, R149, R172): exactly one Poll is made and dispatched in this
tick, and the queue stays empty. -/
def Obligations.IdleTickSendsOnePoll : Prop :=
  ∀ s : State, s.link = .opened → s.arb = .idle → s.q = [] →
    1 ≤ s.cfg.pollPayload.length → s.cfg.pollPayload.length ≤ 250 →
    ∃ c n, exec .tick s = .next { s with
      arb := .awaitingResponse,
      cur := some { kind := .poll, frame := frame s.cfg s.cfg.pollPayload, timeout := s.cfg.pollTimeoutMs },
      toAcc := 0, toArmed := decide (s.cfg.pollTimeoutMs ≠ 0), crc := c, free := n,
      out := s.out ++ [.tx .req (frame s.cfg s.cfg.pollPayload)] }

/-- TICK (R146): nothing on a closed link; TICK.ACCOUNT while busy; else one DISPATCH, of the queue's head or, when the
queue is empty, of the Poll that R149 makes. The premise on `POLL_PAYLOAD` is R7's range. -/
def Obligations.TickAccountsOrDispatchesOneTask : Prop :=
  ∀ s : State, 1 ≤ s.cfg.pollPayload.length → s.cfg.pollPayload.length ≤ 250 →
    (s.link = .closed → exec .tick s = .next s) ∧
    (s.link = .opened → s.arb = .awaitingResponse → exec .tick s = exec .tickAccount s) ∧
    (s.link = .opened → s.arb = .idle → s.q = [] → ∃ c n, exec .tick s =
      exec (.dispatch ⟨.poll, frame s.cfg s.cfg.pollPayload, s.cfg.pollTimeoutMs⟩) { s with crc := c, free := n }) ∧
    ∀ t q, s.link = .opened → s.arb = .idle → s.q = t :: q → exec .tick s = exec (.dispatch t) { s with q := q }

/-- TICK.ACCOUNT (R147): nothing while not armed; else `TO_ACC` grows by `TICK_MS`, and the Task times out when `TO_ACC`
has reached its timeout. -/
def Obligations.TickAccountCountsUpToTheTimeout : Prop :=
  ∀ s : State,
    (s.toArmed = false → exec .tickAccount s = .next s) ∧
    ∀ t, s.toArmed = true → s.cur = some t →
      (s.toAcc + s.cfg.tickMs < t.timeout →
        exec .tickAccount s = .next { s with toAcc := s.toAcc + s.cfg.tickMs }) ∧
      (t.timeout ≤ s.toAcc + s.cfg.tickMs →
        exec .tickAccount s = exec .timeout { s with toAcc := s.toAcc + s.cfg.tickMs })

/-- DISPATCH (R148): the Task's bytes go out unchanged, and the assembler is not touched. -/
def Obligations.DispatchSendsTheTask : Prop :=
  ∀ (t : Task) (s : State), exec (.dispatch t) s = .next { s with
    arb := .awaitingResponse, cur := some t, toAcc := 0, toArmed := decide (t.timeout ≠ 0),
    out := s.out ++ [.tx .req t.frame] }

/-- POLLSYNTH (R149): the Poll Task it returns (`ret`: log entry 4). -/
def Obligations.PollSynthMakesThePoll : Prop :=
  ∀ s : State, 1 ≤ s.cfg.pollPayload.length → s.cfg.pollPayload.length ≤ 250 →
    ∃ c n, exec .pollSynth s = .next { s with
      crc := c, free := n,
      ret := .task ⟨.poll, frame s.cfg s.cfg.pollPayload, s.cfg.pollTimeoutMs⟩ }

/-- TIMEOUT (R150): the in-flight Task ends with RequestTimeout; nothing is transmitted, the partial frame is kept. -/
def Obligations.TimeoutEndsTheTask : Prop :=
  ∀ (s : State) (t : Task), s.cur = some t → exec .timeout s = .next { s with
    toArmed := false, arb := .idle, cur := none, out := s.out ++ [failureRecord .requestTimeout t] }

/-- The timeout boundary (R173): with no frame, the Task is still in flight while the elapsed time is below its timeout
`T`, and ends with RequestTimeout at the first tick at which the elapsed time has reached `T`. -/
def Obligations.TimeoutFallsOnTheFirstTickAtOrPastT : Prop :=
  ∀ (s : State) (t : Task) (n : Nat), s.link = .opened → s.arb = .awaitingResponse → s.cur = some t →
    s.toArmed = true → s.toAcc = 0 → t.timeout ≠ 0 →
    (n * s.cfg.tickMs < t.timeout →
      runAll (List.replicate n .tick) s = .next { s with toAcc := n * s.cfg.tickMs }) ∧
    (n * s.cfg.tickMs < t.timeout → t.timeout ≤ (n + 1) * s.cfg.tickMs →
      runAll (List.replicate (n + 1) .tick) s = .next { s with
        toAcc := (n + 1) * s.cfg.tickMs, toArmed := false, arb := .idle, cur := none,
        out := s.out ++ [failureRecord .requestTimeout t] })

/-! ## A frame arrives -/

/-- RXFRAME (R151): nothing while idle; while busy the timeout is disarmed for every frame, and the frame's class
decides the operation, in the order size, checksum, ACK marker, NAK marker. -/
def Obligations.RxFrameRunsTheClassOfTheFrame : Prop :=
  ∀ (s : State) (f : Bytes),
    (s.arb = .idle → exec (.rxFrame f) s = exec (.rxIdle f) s) ∧
    (s.arb = .awaitingResponse → ∃ c n,
      let s' := { s with toArmed := false, crc := c, free := n }
      exec (.rxFrame f) s =
        if f.length < 5 ∨ crcVerify s.cfg.poly f = false then exec .rxBad s'
        else if payload f = [0x00] then exec .rxAck s'
        else if payload f = [0xFF] then exec .rxNak s'
        else exec (.rxData (payload f)) s')

/-- RX.IDLE (R152) and RX.ACK (R154): no action of their own; after an ACK marker the Task stays in flight with the
timeout disarmed. -/
def Obligations.AckMarkerKeepsTheTaskInFlight : Prop :=
  ∀ (s : State) (f : Bytes),
    exec (.rxIdle f) s = .next s ∧ exec .rxAck s = .next s ∧
    (s.arb = .awaitingResponse → classify s.cfg.poly f = .ack →
      ∃ c n, exec (.rxFrame f) s = .next { s with toArmed := false, crc := c, free := n })

/-- RX.BAD (R153): the NAK frame goes out before the record of ChecksumMismatch. -/
def Obligations.BadFrameIsNakedAndFailsTheTask : Prop :=
  ∀ (s : State) (t : Task), s.cur = some t → ∃ c n, exec .rxBad s = .next { s with
    toArmed := false, arb := .idle, cur := none, crc := c, free := n,
    out := s.out ++ [.tx .nak (frame s.cfg [0xFF]), failureRecord .checksumMismatch t] }

/-- RX.NAK (R155): PeerRejected, and nothing is transmitted. -/
def Obligations.NakMarkerRejectsTheTask : Prop :=
  ∀ (s : State) (t : Task), s.cur = some t → exec .rxNak s = .next { s with
    toArmed := false, arb := .idle, cur := none, out := s.out ++ [failureRecord .peerRejected t] }

/-- RX.DATA (R156): the ACK frame goes out before the record of success with the payload. -/
def Obligations.DataFrameIsAckedAndCompletesTheTask : Prop :=
  ∀ (s : State) (t : Task) (p : Bytes), s.cur = some t → ∃ c n, exec (.rxData p) s = .next { s with
    toArmed := false, arb := .idle, cur := none, crc := c, free := n,
    lastStatus := statusAfter s.lastStatus t (.ok p),
    out := s.out ++ [.tx .ack (frame s.cfg [0x00]), sinkRecord s.lastStatus t (.ok p)] }

/-- COMPLETE (R157): exactly one record; a host Task's goes to COMPL, a Poll's to STATUS with `changed` computed from
`LASTSTATUS`, which only a successful Poll writes. -/
def Obligations.CompleteInvokesTheSinkOnce : Prop :=
  ∀ (s : State) (frm : Bytes) (ms : Nat) (v : Verdict),
    (∀ tag, exec (.complete ⟨.host tag, frm, ms⟩ v) s = .next { s with out := s.out ++ [.compl tag v] }) ∧
    (∀ p, exec (.complete ⟨.poll, frm, ms⟩ (.ok p)) s = .next { s with
      lastStatus := some p, out := s.out ++ [.status p (decide (s.lastStatus = none ∨ s.lastStatus ≠ some p))] }) ∧
    ∀ e, exec (.complete ⟨.poll, frm, ms⟩ (.error e)) s = .next { s with out := s.out ++ [.pollError e] }

/-- TX.REQ, TX.ACK, TX.NAK (R79): each writes `frame(p)` of its payload and nothing else; TX.REQ stops on a payload
outside the encoder's domain (log entry 11). That a row of the table can run on its own is log entry 3. -/
def Obligations.TransmittedFramesAreEncoded : Prop :=
  ∀ s : State,
    (∀ p : Bytes, 1 ≤ p.length → p.length ≤ 250 → ∃ c n, exec (.txReq p) s = .next { s with
      crc := c, free := n, out := s.out ++ [.tx .req (frame s.cfg p)] }) ∧
    (∀ p : Bytes, p.length = 0 ∨ 250 < p.length → exec (.txReq p) s = .fault .outsideDomain) ∧
    (∃ c n, exec .txAck s = .next { s with
      crc := c, free := n, out := s.out ++ [.tx .ack (frame s.cfg [0x00])] }) ∧
    ∃ c n, exec .txNak s = .next { s with
      crc := c, free := n, out := s.out ++ [.tx .nak (frame s.cfg [0xFF])] }

/-- The hang after an ACK marker and with timeout 0 (R252, R253): while a Task is in flight and the timeout is not
armed, any number of ticks changes nothing at all. -/
def Obligations.DisarmedTaskWaitsForEver : Prop :=
  ∀ (s : State) (n : Nat), s.arb = .awaitingResponse → s.toArmed = false →
    runAll (List.replicate n .tick) s = .next s

/-! ## The whole machine -/

/-- A step runs the operation its record presents: the probe's if it is filled, else the first input event's, and
`step` adds nothing but taking the record away; with nothing presented the block waits. -/
def Obligations.StepRunsTheDecodedOperation : Prop :=
  ∀ s : State,
    (∀ record i r, s.probe = some record → decode record = .ok (i, r) →
      step s = exec i { s with probe := none }) ∧
    (∀ record rest i r, s.probe = none → s.input = record :: rest → decode record = .ok (i, r) →
      i.isEvent = true → step s = exec i { s with input := rest }) ∧
    (s.probe = none → s.input = [] → step s = .next s) ∧
    (∀ record e, s.probe = some record → decode record = .error e → step s = .refused (.undecodable e)) ∧
    (∀ record rest e, s.probe = none → s.input = record :: rest → decode record = .error e →
      step s = .refused (.undecodable e)) ∧
    ∀ record rest i r, s.probe = none → s.input = record :: rest → decode record = .ok (i, r) →
      i.isEvent = false → step s = .refused .notAnEvent

/-- Coincident events (R220): the events of one cycle, presented together, are processed one after another in the order
`serialise` gives them, which loses none, adds none and goes by priority; that those of one priority keep the order in
which they are given is the model's choice (log entry 19), as is the form in which they are presented (log entry 1). -/
def Obligations.CoincidentEventsRunByPriority : Prop :=
  ∀ events : List Instr,
    (∀ s : State, s.probe = none → s.input = [] → (∀ i ∈ events, i.wellFormed = true ∧ i.isEvent = true) →
      runSteps events.length (s.presentCycle events) = runAll (serialise events) s) ∧
    (serialise events).Perm events ∧
    (serialise events).Pairwise (fun a b => priority a ≤ priority b) ∧
    (∀ k, (serialise events).filter (fun i => priority i == k) = events.filter (fun i => priority i == k)) ∧
    ∀ b tag p ms, priority .reset < priority .openLink ∧ priority .openLink < priority .closeLink ∧
      priority .closeLink < priority .terr ∧ priority .terr < priority (.rxbyte b) ∧
      priority (.rxbyte b) < priority .tick ∧ priority .tick < priority (.submit tag p ms)

/-- No operation writes the configuration (R34), and the three output streams only grow (R35 to R37): for every
operation of the table, not only the events. -/
def Obligations.ConfigurationIsFixedAndStreamsOnlyGrow : Prop :=
  ∀ (i : Instr) (s s' : State), exec i s = .next s' →
    s'.cfg = s.cfg ∧ s'.input = s.input ∧ s'.probe = s.probe ∧ (∃ new, s'.out = s.out ++ new) ∧
    (∃ a, s'.tx = s.tx ++ a) ∧ (∃ a, s'.compl = s.compl ++ a) ∧ ∃ a, s'.status = s.status ++ a

/-- `RXBUF` is written only by RXBYTE, one byte, at index `RXCNT`, and only on an open link (R21): for every other
operation every byte reads as before, and after an RXBYTE every byte but that one. -/
def Obligations.ReceiveBufferIsWrittenOnlyByRxbyte : Prop :=
  ∀ (i : Instr) (s s' : State), exec i s = .next s' →
    ((∀ b, i ≠ .rxbyte b) → s'.rxbuf = s.rxbuf) ∧
    ∀ b, i = .rxbyte b →
      (s.link = .closed → s'.rxbuf = s.rxbuf) ∧
      (s.link = .opened → s.rxbuf.wf = true → s'.rxbuf.byte s.rxcnt.toNat = b) ∧
      ∀ a, a ≠ s.rxcnt.toNat → s'.rxbuf.byte a = s.rxbuf.byte a

/-- `LASTSTATUS` is written only by RESET and by a successful Poll (R33): an event that changes it is RESET, which makes
it `none`, or the RXBYTE that completes a data frame for an in-flight Poll, whose payload it becomes. -/
def Obligations.LastStatusChangesOnlyByPollOrReset : Prop :=
  ∀ (i : Instr) (s s' : State), i.isEvent = true → exec i s = .next s' → s'.lastStatus ≠ s.lastStatus →
    (i = .reset ∧ s'.lastStatus = none) ∨
    ∃ b f p t, i = .rxbyte b ∧ s.busy = true ∧ completedFrame s b = some f ∧ classify s.cfg.poly f = .data p ∧
      s.cur = some t ∧ t.kind = .poll ∧ s'.lastStatus = some p

/-- Every transition of `ARB` (R170): IDLE is left only by a TICK on an open link, and by every such TICK that answers;
AWAITING_RESPONSE is left only by RESET, a tear-down of an open link, the TICK that times the Task out, and a completed
frame that is not an ACK marker. -/
def Obligations.ArbiterTransitionsAreTheTable : Prop :=
  ∀ (i : Instr) (s s' : State), i.isEvent = true → exec i s = .next s' →
    (s.arb = .idle → (s'.arb = .awaitingResponse ↔ i = .tick ∧ s.link = .opened)) ∧
    (s.arb = .awaitingResponse → (s'.arb = .idle ↔
      i = .reset ∨
      ((i = .closeLink ∨ i = .terr) ∧ s.link = .opened) ∨
      (i = .tick ∧ s.link = .opened ∧ s.toArmed = true ∧
        ∃ t, s.cur = some t ∧ t.timeout ≤ s.toAcc + s.cfg.tickMs) ∨
      ∃ b f, i = .rxbyte b ∧ completedFrame s b = some f ∧ classify s.cfg.poly f ≠ .ack))

/-- The half-duplex transmit law (R69): an event transmits a request frame exactly when it is a TICK while idle and
open, an ACK frame exactly when it completes a data frame while busy, a NAK frame exactly when it completes a bad frame
while busy, and never more than one frame. -/
def Obligations.TransmitsInExactlyThreeSituations : Prop :=
  ∀ (i : Instr) (s s' : State), i.isEvent = true → exec i s = .next s' →
    ∃ new, s'.out = s.out ++ new ∧
      ((∃ f, Output.tx .req f ∈ new) ↔ i = .tick ∧ s.link = .opened ∧ s.arb = .idle) ∧
      ((∃ f, Output.tx .ack f ∈ new) ↔ s.arb = .awaitingResponse ∧
        ∃ b f p, i = .rxbyte b ∧ completedFrame s b = some f ∧ classify s.cfg.poly f = .data p) ∧
      ((∃ f, Output.tx .nak f ∈ new) ↔ s.arb = .awaitingResponse ∧
        ∃ b f, i = .rxbyte b ∧ completedFrame s b = some f ∧ classify s.cfg.poly f = .bad) ∧
      (new.filter Output.isTx).length ≤ 1

/-- One step towards R65, R171 and R211: an event other than RESET loses, repeats and reorders no host Task, since the
tags of the records followed by those of the Tasks still pending stay the same list. A SUBMIT adds its tag once, to the
Tasks still pending or, when it is refused, to the records. It does not say that a Task ever completes (R252, R253). -/
def Obligations.NoHostTaskIsLostRepeatedOrReordered : Prop :=
  ∀ (i : Instr) (s s' : State), BlockInv s → i.isEvent = true → i ≠ .reset → exec i s = .next s' →
    ((∀ tag p ms, i ≠ .submit tag p ms) → s'.doneTags ++ s'.pendingTags = s.doneTags ++ s.pendingTags) ∧
    ∀ tag p ms, i = .submit tag p ms →
      (s'.pendingTags = s.pendingTags ++ [tag] ∧ s'.doneTags = s.doneTags) ∨
      (s'.pendingTags = s.pendingTags ∧ s'.doneTags = s.doneTags ++ [tag])

/-- One step towards R211 and R172: an event other than RESET keeps the number of Polls in flight plus the number of
STATUS records, but for the TICK that makes a Poll, which adds one. It does not say that a Poll ever completes (R252). -/
def Obligations.PollsInFlightPlusStatusRecordsAreConserved : Prop :=
  ∀ (i : Instr) (s s' : State), BlockInv s → i.isEvent = true → i ≠ .reset → exec i s = .next s' →
    s'.pendingPolls + s'.donePolls = s.pendingPolls + s.donePolls +
      (if i = .tick ∧ s.link = .opened ∧ s.arb = .idle ∧ s.q = [] then 1 else 0)

/-- The invariant holds after reset (R39 items 1 to 6, R41), at the model's values (log entries 5, 6 and 7). -/
def Obligations.InvariantAtReset : Prop := BlockInv State.reset

/-- Every step keeps the invariant (R39 items 1 to 6; item 6, single flight, as R63 has it: since the request frame of the
Task in flight the block has emitted refusals of SUBMIT and nothing else), from every state that meets it. -/
def Obligations.StepKeepsTheInvariant : Prop :=
  ∀ s s' : State, BlockInv s → step s = .next s' → BlockInv s'

/-- The block is total (R12, R14): from every state that meets the invariant every input event is processed to a next
state, and no step faults. -/
def Obligations.EveryEventIsProcessed : Prop :=
  ∀ s : State, BlockInv s →
    (∀ i : Instr, i.isEvent = true → ∃ s', exec i s = .next s') ∧ ∀ r : Fault, step s ≠ .fault r
end

