-- ==== Sys2Proof/Laws/Memory.lean ====
section
/-! SUPPORT. The laws of `RXBUF`: read after write, and that every write keeps the canonical form. -/

namespace Sys2Proof.Machine

/-- A canonical memory above a bound is canonical above a lower one. -/
theorem Memory.wfFrom_mono {lo lo' : Nat} {m : Memory} (h : lo ≤ lo') (hm : Memory.wfFrom lo' m = true) :
    Memory.wfFrom lo m = true := by
  cases m with
  | nil => rfl
  | cons c m =>
    simp only [Memory.wfFrom, Bool.and_eq_true, decide_eq_true_eq] at hm ⊢
    exact ⟨⟨⟨by omega, hm.1.1.2⟩, hm.1.2⟩, hm.2⟩

/-- Below its bound a canonical memory reads the unlisted byte. -/
theorem Memory.byte_below {lo a : Nat} {m : Memory} (hm : Memory.wfFrom lo m = true) (ha : a < lo) :
    m.byte a = Memory.unlisted := by
  induction m generalizing lo with
  | nil => rfl
  | cons c m ih =>
    obtain ⟨b, x⟩ := c
    simp only [Memory.wfFrom, Bool.and_eq_true, decide_eq_true_eq] at hm
    have hb : b ≠ a := by omega
    simp only [Memory.byte, hb, if_false]
    exact ih hm.2 (by omega)

/-- Writing one byte keeps the canonical form. -/
theorem Memory.set_wfFrom {lo a : Nat} {v : Byte} {m : Memory} (hm : Memory.wfFrom lo m = true)
    (hlo : lo ≤ a) (ha : a < rxbufSize) : Memory.wfFrom lo (m.set a v) = true := by
  induction m generalizing lo with
  | nil => by_cases hv : v = Memory.unlisted <;> simp [Memory.set, Memory.wfFrom, hv, hlo, ha]
  | cons c m ih =>
    obtain ⟨b, x⟩ := c
    have hm' := hm
    simp only [Memory.wfFrom, Bool.and_eq_true, decide_eq_true_eq] at hm'
    obtain ⟨⟨⟨h1, h2⟩, h3⟩, h4⟩ := hm'
    simp only [Memory.set]
    split
    · next hlt =>
      split
      · exact hm
      · next hv =>
        simp only [Memory.wfFrom, Bool.and_eq_true, decide_eq_true_eq]
        exact ⟨⟨⟨hlo, ha⟩, by simpa using hv⟩, ⟨⟨by omega, h2⟩, h3⟩, h4⟩
    · split
      · next heq =>
        subst heq
        split
        · exact Memory.wfFrom_mono (by omega) h4
        · next hv =>
          simp only [Memory.wfFrom, Bool.and_eq_true, decide_eq_true_eq]
          exact ⟨⟨⟨h1, h2⟩, by simpa using hv⟩, h4⟩
      · next hge hne =>
        simp only [Memory.wfFrom, Bool.and_eq_true, decide_eq_true_eq]
        exact ⟨⟨⟨h1, h2⟩, h3⟩, ih h4 (by omega)⟩

/-- Writing one byte of `RXBUF` keeps the canonical form. -/
theorem Memory.set_wf {a : Nat} {v : Byte} {m : Memory} (hm : m.wf = true) (ha : a < rxbufSize) :
    (m.set a v).wf = true := Memory.set_wfFrom hm (Nat.zero_le a) ha

/-- A byte written reads back. -/
theorem Memory.byte_set_same {lo a : Nat} {v : Byte} {m : Memory} (hm : Memory.wfFrom lo m = true) :
    (m.set a v).byte a = v := by
  induction m generalizing lo with
  | nil => by_cases hv : v = Memory.unlisted <;> simp [Memory.set, Memory.byte, hv]
  | cons c m ih =>
    obtain ⟨b, x⟩ := c
    have hm' := hm
    simp only [Memory.wfFrom, Bool.and_eq_true, decide_eq_true_eq] at hm'
    simp only [Memory.set]
    split
    · next hlt =>
      split
      · next hv =>
        have hb : b ≠ a := by omega
        simp only [Memory.byte, hb, if_false]
        rw [hv]
        exact Memory.byte_below hm'.2 (by omega)
      · simp [Memory.byte]
    · split
      · next heq =>
        subst heq
        split
        · next hv => rw [hv]; exact Memory.byte_below hm'.2 (by omega)
        · simp [Memory.byte]
      · next hge hne =>
        have hb : b ≠ a := fun h => hne h.symm
        simp only [Memory.byte, hb, if_false]
        exact ih hm'.2

/-- A write leaves every other byte alone. -/
theorem Memory.byte_set_other {a b : Nat} (v : Byte) (m : Memory) (h : a ≠ b) :
    (m.set a v).byte b = m.byte b := by
  induction m with
  | nil => by_cases hv : v = Memory.unlisted <;> simp [Memory.set, Memory.byte, hv, h]
  | cons c m ih =>
    obtain ⟨d, x⟩ := c
    simp only [Memory.set]
    split
    · split
      · rfl
      · simp [Memory.byte, h]
    · split
      · next heq =>
        subst heq
        split <;> simp [Memory.byte, h]
      · simp only [Memory.byte, ih]

/-- Writing a byte string keeps the canonical form. -/
theorem Memory.setBytes_wf {a : Nat} {v : Bytes} {m : Memory} (hm : m.wf = true)
    (ha : a + v.length ≤ rxbufSize) : (m.setBytes a v).wf = true := by
  induction v generalizing a m with
  | nil => exact hm
  | cons b v ih =>
    simp only [List.length_cons] at ha
    exact ih (Memory.set_wf hm (by omega)) (by omega)

/-- `MemWrite` keeps the canonical form. -/
theorem Memory.write_wf {a : Nat} {v : Bytes} {m m' : Memory} (hm : m.wf = true)
    (h : m.write a v = some m') : m'.wf = true := by
  unfold Memory.write at h
  split at h
  · next hlen => cases h; exact Memory.setBytes_wf hm hlen
  · cases h

/-- `MemWrite` of one byte, where it exists. -/
theorem Memory.write_one {a : Nat} (b : Byte) (m : Memory) (ha : a < rxbufSize) :
    m.write a [b] = some (m.set a b) := by
  have h : a + [b].length ≤ rxbufSize := by simpa using ha
  simp only [Memory.write, h, if_true, Memory.setBytes]

/-- The bytes read are as many as were asked for. -/
@[simp] theorem Memory.length_bytes (m : Memory) (a n : Nat) : (m.bytes a n).length = n := by
  induction n generalizing a with
  | zero => rfl
  | succ n ih => simp [Memory.bytes, ih]

/-- A write outside a run of bytes leaves the run alone. -/
theorem Memory.bytes_set_other {a n c : Nat} (v : Byte) (m : Memory) (h : c < a ∨ a + n ≤ c) :
    (m.set c v).bytes a n = m.bytes a n := by
  induction n generalizing a with
  | zero => rfl
  | succ n ih =>
    simp only [Memory.bytes]
    rw [Memory.byte_set_other v m (by omega), ih (by omega)]

/-- A run of bytes and the byte after it. -/
theorem Memory.bytes_succ (m : Memory) (a n : Nat) : m.bytes a (n + 1) = m.bytes a n ++ [m.byte (a + n)] := by
  induction n generalizing a with
  | zero => simp [Memory.bytes]
  | succ n ih =>
    rw [Memory.bytes, ih (a + 1)]
    simp [Memory.bytes, Nat.add_comm, Nat.add_left_comm]

end Sys2Proof.Machine
end

