-- ==== Sys2Proof/Laws/Outputs.lean ====
section
/-! SUPPORT. The three output streams as views of the history, entry by entry. -/

namespace Sys2Proof.Machine

@[simp] theorem txBytes_nil : txBytes [] = [] := rfl
@[simp] theorem complRecords_nil : complRecords [] = [] := rfl
@[simp] theorem statusRecords_nil : statusRecords [] = [] := rfl

@[simp] theorem txBytes_append (a b : List Output) : txBytes (a ++ b) = txBytes a ++ txBytes b :=
  List.flatMap_append

@[simp] theorem complRecords_append (a b : List Output) :
    complRecords (a ++ b) = complRecords a ++ complRecords b := List.filterMap_append

@[simp] theorem statusRecords_append (a b : List Output) :
    statusRecords (a ++ b) = statusRecords a ++ statusRecords b := List.filterMap_append

@[simp] theorem txBytes_tx (k : TxKind) (f : Bytes) (o : List Output) :
    txBytes (.tx k f :: o) = f ++ txBytes o := rfl
@[simp] theorem txBytes_compl (tag : Nat) (v : Verdict) (o : List Output) :
    txBytes (.compl tag v :: o) = txBytes o := rfl
@[simp] theorem txBytes_status (c : Bytes) (b : Bool) (o : List Output) :
    txBytes (.status c b :: o) = txBytes o := rfl
@[simp] theorem txBytes_pollError (e : LinkError) (o : List Output) :
    txBytes (.pollError e :: o) = txBytes o := rfl

@[simp] theorem complRecords_tx (k : TxKind) (f : Bytes) (o : List Output) :
    complRecords (.tx k f :: o) = complRecords o := rfl
@[simp] theorem complRecords_compl (tag : Nat) (v : Verdict) (o : List Output) :
    complRecords (.compl tag v :: o) = (tag, v) :: complRecords o := rfl
@[simp] theorem complRecords_status (c : Bytes) (b : Bool) (o : List Output) :
    complRecords (.status c b :: o) = complRecords o := rfl
@[simp] theorem complRecords_pollError (e : LinkError) (o : List Output) :
    complRecords (.pollError e :: o) = complRecords o := rfl

@[simp] theorem statusRecords_tx (k : TxKind) (f : Bytes) (o : List Output) :
    statusRecords (.tx k f :: o) = statusRecords o := rfl
@[simp] theorem statusRecords_compl (tag : Nat) (v : Verdict) (o : List Output) :
    statusRecords (.compl tag v :: o) = statusRecords o := rfl
@[simp] theorem statusRecords_status (c : Bytes) (b : Bool) (o : List Output) :
    statusRecords (.status c b :: o) = .code c b :: statusRecords o := rfl
@[simp] theorem statusRecords_pollError (e : LinkError) (o : List Output) :
    statusRecords (.pollError e :: o) = .pollError e :: statusRecords o := rfl

@[simp] theorem hostTags_nil : hostTags [] = [] := rfl

@[simp] theorem hostTags_append (a b : List Task) : hostTags (a ++ b) = hostTags a ++ hostTags b :=
  List.filterMap_append

/-- The tag a Task adds to a list of tags. -/
theorem hostTags_cons (t : Task) (ts : List Task) : hostTags (t :: ts) = hostTags [t] ++ hostTags ts :=
  hostTags_append [t] ts

/-- The record of a sink carries the tag of its Task, and a Poll's record carries none. -/
@[simp] theorem complRecords_sinkRecord (last : Option Bytes) (t : Task) (v : Verdict) :
    (complRecords [sinkRecord last t v]).map (·.1) = hostTags [t] := by
  obtain ⟨k, f, ms⟩ := t; cases k <;> cases v <;> rfl

@[simp] theorem complRecords_failureRecord (e : LinkError) (t : Task) :
    (complRecords [failureRecord e t]).map (·.1) = hostTags [t] := by
  obtain ⟨k, f, ms⟩ := t; cases k <;> rfl

/-- Failing Tasks records their tags in order. -/
theorem complRecords_failures (e : LinkError) (ts : List Task) :
    (complRecords (ts.map (failureRecord e))).map (·.1) = hostTags ts := by
  induction ts with
  | nil => rfl
  | cons t ts ih =>
    rw [List.map_cons, ← List.singleton_append, complRecords_append, List.map_append, ih,
      complRecords_failureRecord, ← hostTags_cons]

/-- No record is a transmitted frame. -/
theorem sinkRecord_ne_tx (last : Option Bytes) (t : Task) (v : Verdict) (k : TxKind) (f : Bytes) :
    sinkRecord last t v ≠ .tx k f := by
  obtain ⟨k', f', ms⟩ := t; cases k' <;> cases v <;> simp [sinkRecord]

theorem failureRecord_ne_tx (e : LinkError) (t : Task) (k : TxKind) (f : Bytes) :
    failureRecord e t ≠ .tx k f := by
  obtain ⟨k', f', ms⟩ := t; cases k' <;> simp [failureRecord]

end Sys2Proof.Machine
end

