-- ==== Sys2Proof/Laws/State.lean ====
section
/-! SUPPORT. What each named update of the state does to each field: one lemma per field, so that no proof unfolds an
update. -/

namespace Sys2Proof.Machine

variable (s : State)

/-! ### `emit` -/

@[simp] theorem emit_cfg (o : Output) : (emit o s).cfg = s.cfg := rfl
@[simp] theorem emit_link (o : Output) : (emit o s).link = s.link := rfl
@[simp] theorem emit_arb (o : Output) : (emit o s).arb = s.arb := rfl
@[simp] theorem emit_cur (o : Output) : (emit o s).cur = s.cur := rfl
@[simp] theorem emit_q (o : Output) : (emit o s).q = s.q := rfl
@[simp] theorem emit_toArmed (o : Output) : (emit o s).toArmed = s.toArmed := rfl
@[simp] theorem emit_toAcc (o : Output) : (emit o s).toAcc = s.toAcc := rfl
@[simp] theorem emit_rxbuf (o : Output) : (emit o s).rxbuf = s.rxbuf := rfl
@[simp] theorem emit_rxcnt (o : Output) : (emit o s).rxcnt = s.rxcnt := rfl
@[simp] theorem emit_lastStatus (o : Output) : (emit o s).lastStatus = s.lastStatus := rfl
@[simp] theorem emit_crc (o : Output) : (emit o s).crc = s.crc := rfl
@[simp] theorem emit_out (o : Output) : (emit o s).out = s.out ++ [o] := rfl
@[simp] theorem emit_free (o : Output) : (emit o s).free = s.free := rfl
@[simp] theorem emit_ret (o : Output) : (emit o s).ret = s.ret := rfl
@[simp] theorem emit_input (o : Output) : (emit o s).input = s.input := rfl
@[simp] theorem emit_probe (o : Output) : (emit o s).probe = s.probe := rfl

/-! ### `useCrc` -/

@[simp] theorem useCrc_cfg : (useCrc s).cfg = s.cfg := rfl
@[simp] theorem useCrc_link : (useCrc s).link = s.link := rfl
@[simp] theorem useCrc_arb : (useCrc s).arb = s.arb := rfl
@[simp] theorem useCrc_cur : (useCrc s).cur = s.cur := rfl
@[simp] theorem useCrc_q : (useCrc s).q = s.q := rfl
@[simp] theorem useCrc_toArmed : (useCrc s).toArmed = s.toArmed := rfl
@[simp] theorem useCrc_toAcc : (useCrc s).toAcc = s.toAcc := rfl
@[simp] theorem useCrc_rxbuf : (useCrc s).rxbuf = s.rxbuf := rfl
@[simp] theorem useCrc_rxcnt : (useCrc s).rxcnt = s.rxcnt := rfl
@[simp] theorem useCrc_lastStatus : (useCrc s).lastStatus = s.lastStatus := rfl
@[simp] theorem useCrc_crc : (useCrc s).crc = Config.freeCrc s.free := rfl
@[simp] theorem useCrc_out : (useCrc s).out = s.out := rfl
@[simp] theorem useCrc_free : (useCrc s).free = s.free + 1 := rfl
@[simp] theorem useCrc_ret : (useCrc s).ret = s.ret := rfl
@[simp] theorem useCrc_input : (useCrc s).input = s.input := rfl
@[simp] theorem useCrc_probe : (useCrc s).probe = s.probe := rfl

/-! ### `sendFrame` -/

@[simp] theorem sendFrame_cfg (k : TxKind) (p : Bytes) : (sendFrame k p s).cfg = s.cfg := rfl
@[simp] theorem sendFrame_link (k : TxKind) (p : Bytes) : (sendFrame k p s).link = s.link := rfl
@[simp] theorem sendFrame_arb (k : TxKind) (p : Bytes) : (sendFrame k p s).arb = s.arb := rfl
@[simp] theorem sendFrame_cur (k : TxKind) (p : Bytes) : (sendFrame k p s).cur = s.cur := rfl
@[simp] theorem sendFrame_q (k : TxKind) (p : Bytes) : (sendFrame k p s).q = s.q := rfl
@[simp] theorem sendFrame_toArmed (k : TxKind) (p : Bytes) : (sendFrame k p s).toArmed = s.toArmed := rfl
@[simp] theorem sendFrame_toAcc (k : TxKind) (p : Bytes) : (sendFrame k p s).toAcc = s.toAcc := rfl
@[simp] theorem sendFrame_rxbuf (k : TxKind) (p : Bytes) : (sendFrame k p s).rxbuf = s.rxbuf := rfl
@[simp] theorem sendFrame_rxcnt (k : TxKind) (p : Bytes) : (sendFrame k p s).rxcnt = s.rxcnt := rfl
@[simp] theorem sendFrame_lastStatus (k : TxKind) (p : Bytes) : (sendFrame k p s).lastStatus = s.lastStatus := rfl
@[simp] theorem sendFrame_crc (k : TxKind) (p : Bytes) : (sendFrame k p s).crc = Config.freeCrc s.free := rfl
@[simp] theorem sendFrame_out (k : TxKind) (p : Bytes) : (sendFrame k p s).out = s.out ++ [.tx k (frame s.cfg p)] := rfl
@[simp] theorem sendFrame_free (k : TxKind) (p : Bytes) : (sendFrame k p s).free = s.free + 1 := rfl
@[simp] theorem sendFrame_ret (k : TxKind) (p : Bytes) : (sendFrame k p s).ret = s.ret := rfl
@[simp] theorem sendFrame_input (k : TxKind) (p : Bytes) : (sendFrame k p s).input = s.input := rfl
@[simp] theorem sendFrame_probe (k : TxKind) (p : Bytes) : (sendFrame k p s).probe = s.probe := rfl

/-! ### `release` -/

@[simp] theorem release_cfg : (release s).cfg = s.cfg := rfl
@[simp] theorem release_link : (release s).link = s.link := rfl
@[simp] theorem release_arb : (release s).arb = .idle := rfl
@[simp] theorem release_cur : (release s).cur = none := rfl
@[simp] theorem release_q : (release s).q = s.q := rfl
@[simp] theorem release_toArmed : (release s).toArmed = false := rfl
@[simp] theorem release_toAcc : (release s).toAcc = s.toAcc := rfl
@[simp] theorem release_rxbuf : (release s).rxbuf = s.rxbuf := rfl
@[simp] theorem release_rxcnt : (release s).rxcnt = s.rxcnt := rfl
@[simp] theorem release_lastStatus : (release s).lastStatus = s.lastStatus := rfl
@[simp] theorem release_crc : (release s).crc = s.crc := rfl
@[simp] theorem release_out : (release s).out = s.out := rfl
@[simp] theorem release_free : (release s).free = s.free := rfl
@[simp] theorem release_ret : (release s).ret = s.ret := rfl
@[simp] theorem release_input : (release s).input = s.input := rfl
@[simp] theorem release_probe : (release s).probe = s.probe := rfl

/-! ### `clearAssembler` -/

@[simp] theorem clearAssembler_cfg : (clearAssembler s).cfg = s.cfg := rfl
@[simp] theorem clearAssembler_link : (clearAssembler s).link = s.link := rfl
@[simp] theorem clearAssembler_arb : (clearAssembler s).arb = s.arb := rfl
@[simp] theorem clearAssembler_cur : (clearAssembler s).cur = s.cur := rfl
@[simp] theorem clearAssembler_q : (clearAssembler s).q = s.q := rfl
@[simp] theorem clearAssembler_toArmed : (clearAssembler s).toArmed = s.toArmed := rfl
@[simp] theorem clearAssembler_toAcc : (clearAssembler s).toAcc = s.toAcc := rfl
@[simp] theorem clearAssembler_rxbuf : (clearAssembler s).rxbuf = s.rxbuf := rfl
@[simp] theorem clearAssembler_rxcnt : (clearAssembler s).rxcnt = 0 := rfl
@[simp] theorem clearAssembler_lastStatus : (clearAssembler s).lastStatus = s.lastStatus := rfl
@[simp] theorem clearAssembler_crc : (clearAssembler s).crc = s.crc := rfl
@[simp] theorem clearAssembler_out : (clearAssembler s).out = s.out := rfl
@[simp] theorem clearAssembler_free : (clearAssembler s).free = s.free := rfl
@[simp] theorem clearAssembler_ret : (clearAssembler s).ret = s.ret := rfl
@[simp] theorem clearAssembler_input : (clearAssembler s).input = s.input := rfl
@[simp] theorem clearAssembler_probe : (clearAssembler s).probe = s.probe := rfl

/-! ### `disconnect` -/

@[simp] theorem disconnect_cfg : (disconnect s).cfg = s.cfg := rfl
@[simp] theorem disconnect_link : (disconnect s).link = .closed := rfl
@[simp] theorem disconnect_arb : (disconnect s).arb = .idle := rfl
@[simp] theorem disconnect_cur : (disconnect s).cur = none := rfl
@[simp] theorem disconnect_q : (disconnect s).q = [] := rfl
@[simp] theorem disconnect_toArmed : (disconnect s).toArmed = false := rfl
@[simp] theorem disconnect_toAcc : (disconnect s).toAcc = 0 := rfl
@[simp] theorem disconnect_rxbuf : (disconnect s).rxbuf = s.rxbuf := rfl
@[simp] theorem disconnect_rxcnt : (disconnect s).rxcnt = 0 := rfl
@[simp] theorem disconnect_lastStatus : (disconnect s).lastStatus = s.lastStatus := rfl
@[simp] theorem disconnect_crc : (disconnect s).crc = s.crc := rfl
@[simp] theorem disconnect_out : (disconnect s).out = s.out := rfl
@[simp] theorem disconnect_free : (disconnect s).free = s.free := rfl
@[simp] theorem disconnect_ret : (disconnect s).ret = s.ret := rfl
@[simp] theorem disconnect_input : (disconnect s).input = s.input := rfl
@[simp] theorem disconnect_probe : (disconnect s).probe = s.probe := rfl

/-! ### `dispatch` -/

@[simp] theorem dispatch_cfg (t : Task) : (dispatch t s).cfg = s.cfg := rfl
@[simp] theorem dispatch_link (t : Task) : (dispatch t s).link = s.link := rfl
@[simp] theorem dispatch_arb (t : Task) : (dispatch t s).arb = .awaitingResponse := rfl
@[simp] theorem dispatch_cur (t : Task) : (dispatch t s).cur = some t := rfl
@[simp] theorem dispatch_q (t : Task) : (dispatch t s).q = s.q := rfl
@[simp] theorem dispatch_toArmed (t : Task) : (dispatch t s).toArmed = (t.timeout != 0) := rfl
@[simp] theorem dispatch_toAcc (t : Task) : (dispatch t s).toAcc = 0 := rfl
@[simp] theorem dispatch_rxbuf (t : Task) : (dispatch t s).rxbuf = s.rxbuf := rfl
@[simp] theorem dispatch_rxcnt (t : Task) : (dispatch t s).rxcnt = s.rxcnt := rfl
@[simp] theorem dispatch_lastStatus (t : Task) : (dispatch t s).lastStatus = s.lastStatus := rfl
@[simp] theorem dispatch_crc (t : Task) : (dispatch t s).crc = s.crc := rfl
@[simp] theorem dispatch_out (t : Task) : (dispatch t s).out = s.out ++ [.tx .req t.frame] := rfl
@[simp] theorem dispatch_free (t : Task) : (dispatch t s).free = s.free := rfl
@[simp] theorem dispatch_ret (t : Task) : (dispatch t s).ret = s.ret := rfl
@[simp] theorem dispatch_input (t : Task) : (dispatch t s).input = s.input := rfl
@[simp] theorem dispatch_probe (t : Task) : (dispatch t s).probe = s.probe := rfl

/-! ### `refuseSubmit` -/

@[simp] theorem refuseSubmit_cfg (tag : Nat) (e : LinkError) : (refuseSubmit tag e s).cfg = s.cfg := rfl
@[simp] theorem refuseSubmit_link (tag : Nat) (e : LinkError) : (refuseSubmit tag e s).link = s.link := rfl
@[simp] theorem refuseSubmit_arb (tag : Nat) (e : LinkError) : (refuseSubmit tag e s).arb = s.arb := rfl
@[simp] theorem refuseSubmit_cur (tag : Nat) (e : LinkError) : (refuseSubmit tag e s).cur = s.cur := rfl
@[simp] theorem refuseSubmit_q (tag : Nat) (e : LinkError) : (refuseSubmit tag e s).q = s.q := rfl
@[simp] theorem refuseSubmit_toArmed (tag : Nat) (e : LinkError) : (refuseSubmit tag e s).toArmed = s.toArmed := rfl
@[simp] theorem refuseSubmit_toAcc (tag : Nat) (e : LinkError) : (refuseSubmit tag e s).toAcc = s.toAcc := rfl
@[simp] theorem refuseSubmit_rxbuf (tag : Nat) (e : LinkError) : (refuseSubmit tag e s).rxbuf = s.rxbuf := rfl
@[simp] theorem refuseSubmit_rxcnt (tag : Nat) (e : LinkError) : (refuseSubmit tag e s).rxcnt = s.rxcnt := rfl
@[simp] theorem refuseSubmit_lastStatus (tag : Nat) (e : LinkError) : (refuseSubmit tag e s).lastStatus = s.lastStatus := rfl
@[simp] theorem refuseSubmit_crc (tag : Nat) (e : LinkError) : (refuseSubmit tag e s).crc = s.crc := rfl
@[simp] theorem refuseSubmit_out (tag : Nat) (e : LinkError) : (refuseSubmit tag e s).out = s.out ++ [.compl tag (.error e)] := rfl
@[simp] theorem refuseSubmit_free (tag : Nat) (e : LinkError) : (refuseSubmit tag e s).free = s.free := rfl
@[simp] theorem refuseSubmit_ret (tag : Nat) (e : LinkError) : (refuseSubmit tag e s).ret = s.ret := rfl
@[simp] theorem refuseSubmit_input (tag : Nat) (e : LinkError) : (refuseSubmit tag e s).input = s.input := rfl
@[simp] theorem refuseSubmit_probe (tag : Nat) (e : LinkError) : (refuseSubmit tag e s).probe = s.probe := rfl

/-! ### `complete`, which writes the history and, for a Poll that succeeds, `LASTSTATUS` -/

@[simp] theorem complete_cfg (t : Task) (v : Verdict) : (complete t v s).cfg = s.cfg := by
  unfold complete; split <;> [rfl; (split <;> rfl)]
@[simp] theorem complete_link (t : Task) (v : Verdict) : (complete t v s).link = s.link := by
  unfold complete; split <;> [rfl; (split <;> rfl)]
@[simp] theorem complete_arb (t : Task) (v : Verdict) : (complete t v s).arb = s.arb := by
  unfold complete; split <;> [rfl; (split <;> rfl)]
@[simp] theorem complete_cur (t : Task) (v : Verdict) : (complete t v s).cur = s.cur := by
  unfold complete; split <;> [rfl; (split <;> rfl)]
@[simp] theorem complete_q (t : Task) (v : Verdict) : (complete t v s).q = s.q := by
  unfold complete; split <;> [rfl; (split <;> rfl)]
@[simp] theorem complete_toArmed (t : Task) (v : Verdict) : (complete t v s).toArmed = s.toArmed := by
  unfold complete; split <;> [rfl; (split <;> rfl)]
@[simp] theorem complete_toAcc (t : Task) (v : Verdict) : (complete t v s).toAcc = s.toAcc := by
  unfold complete; split <;> [rfl; (split <;> rfl)]
@[simp] theorem complete_rxbuf (t : Task) (v : Verdict) : (complete t v s).rxbuf = s.rxbuf := by
  unfold complete; split <;> [rfl; (split <;> rfl)]
@[simp] theorem complete_rxcnt (t : Task) (v : Verdict) : (complete t v s).rxcnt = s.rxcnt := by
  unfold complete; split <;> [rfl; (split <;> rfl)]
@[simp] theorem complete_crc (t : Task) (v : Verdict) : (complete t v s).crc = s.crc := by
  unfold complete; split <;> [rfl; (split <;> rfl)]
@[simp] theorem complete_free (t : Task) (v : Verdict) : (complete t v s).free = s.free := by
  unfold complete; split <;> [rfl; (split <;> rfl)]
@[simp] theorem complete_ret (t : Task) (v : Verdict) : (complete t v s).ret = s.ret := by
  unfold complete; split <;> [rfl; (split <;> rfl)]
@[simp] theorem complete_input (t : Task) (v : Verdict) : (complete t v s).input = s.input := by
  unfold complete; split <;> [rfl; (split <;> rfl)]
@[simp] theorem complete_probe (t : Task) (v : Verdict) : (complete t v s).probe = s.probe := by
  unfold complete; split <;> [rfl; (split <;> rfl)]

/-! ### `takeFrame`, which disarms the timeout and may compute a checksum -/

@[simp] theorem takeFrame_cfg (f : Bytes) : (takeFrame f s).cfg = s.cfg := by
  unfold takeFrame; dsimp only; split <;> rfl
@[simp] theorem takeFrame_link (f : Bytes) : (takeFrame f s).link = s.link := by
  unfold takeFrame; dsimp only; split <;> rfl
@[simp] theorem takeFrame_arb (f : Bytes) : (takeFrame f s).arb = s.arb := by
  unfold takeFrame; dsimp only; split <;> rfl
@[simp] theorem takeFrame_cur (f : Bytes) : (takeFrame f s).cur = s.cur := by
  unfold takeFrame; dsimp only; split <;> rfl
@[simp] theorem takeFrame_q (f : Bytes) : (takeFrame f s).q = s.q := by
  unfold takeFrame; dsimp only; split <;> rfl
@[simp] theorem takeFrame_toArmed (f : Bytes) : (takeFrame f s).toArmed = false := by
  unfold takeFrame; dsimp only; split <;> rfl
@[simp] theorem takeFrame_toAcc (f : Bytes) : (takeFrame f s).toAcc = s.toAcc := by
  unfold takeFrame; dsimp only; split <;> rfl
@[simp] theorem takeFrame_rxbuf (f : Bytes) : (takeFrame f s).rxbuf = s.rxbuf := by
  unfold takeFrame; dsimp only; split <;> rfl
@[simp] theorem takeFrame_rxcnt (f : Bytes) : (takeFrame f s).rxcnt = s.rxcnt := by
  unfold takeFrame; dsimp only; split <;> rfl
@[simp] theorem takeFrame_lastStatus (f : Bytes) : (takeFrame f s).lastStatus = s.lastStatus := by
  unfold takeFrame; dsimp only; split <;> rfl
@[simp] theorem takeFrame_out (f : Bytes) : (takeFrame f s).out = s.out := by
  unfold takeFrame; dsimp only; split <;> rfl
@[simp] theorem takeFrame_ret (f : Bytes) : (takeFrame f s).ret = s.ret := by
  unfold takeFrame; dsimp only; split <;> rfl
@[simp] theorem takeFrame_input (f : Bytes) : (takeFrame f s).input = s.input := by
  unfold takeFrame; dsimp only; split <;> rfl
@[simp] theorem takeFrame_probe (f : Bytes) : (takeFrame f s).probe = s.probe := by
  unfold takeFrame; dsimp only; split <;> rfl

end Sys2Proof.Machine
end

