-- ==== Sys2Proof/Laws/Ops.lean ====
section
/-! SUPPORT. What each shared operation can do, said once: the lemmas that proofs cite instead of unfolding an operation. -/

namespace Sys2Proof.Machine

variable {s s' : State}

/-! ### Flags -/

theorem busy_iff : s.busy = true ↔ s.arb = .awaitingResponse := by simp [State.busy]

theorem not_busy_iff : s.busy = false ↔ s.arb = .idle := by
  unfold State.busy; cases s.arb <;> decide

theorem isOpen_iff : s.isOpen = true ↔ s.link = .opened := by simp [State.isOpen]

theorem not_isOpen_iff : s.isOpen = false ↔ s.link = .closed := by
  unfold State.isOpen; cases s.link <;> decide

theorem frameComplete_iff :
    s.frameComplete = true ↔ 3 ≤ s.rxcnt.toNat ∧ (s.rxbuf.byte 2).toNat ≤ s.rxcnt.toNat := by
  rw [State.frameComplete, decide_eq_true_iff]; rfl

/-! ### Ending Tasks -/

/-- `complete` appends one record, and a Poll that succeeds sets `LASTSTATUS`. -/
theorem complete_eq (t : Task) (v : Verdict) :
    complete t v s = { s with
      out := s.out ++ [sinkRecord s.lastStatus t v], lastStatus := statusAfter s.lastStatus t v } := by
  obtain ⟨k, f, ms⟩ := t
  cases k <;> cases v <;> simp [complete, emit, sinkRecord, statusAfter, State.changed]

/-- With an error the record does not depend on `LASTSTATUS`, which is kept. -/
theorem sinkRecord_error (last : Option Bytes) (e : LinkError) (t : Task) :
    sinkRecord last t (.error e) = failureRecord e t := by
  obtain ⟨k, f, ms⟩ := t; cases k <;> rfl

theorem statusAfter_error (last : Option Bytes) (e : LinkError) (t : Task) :
    statusAfter last t (.error e) = last := by
  obtain ⟨k, f, ms⟩ := t; cases k <;> rfl

/-- A Task that ends with an error leaves one record and nothing else. -/
theorem complete_error (t : Task) (e : LinkError) :
    complete t (.error e) s = { s with out := s.out ++ [failureRecord e t] } := by
  rw [complete_eq, sinkRecord_error, statusAfter_error]

/-- `endTask` answers exactly when a Task is in flight. -/
theorem endTask_next {v : Verdict} :
    endTask v s = .next s' ↔ ∃ t, s.cur = some t ∧ s' = complete t v (release s) := by
  unfold endTask
  cases h : s.cur <;> simp [eq_comm]

theorem endTask_of_cur {v : Verdict} {t : Task} (h : s.cur = some t) :
    endTask v s = .next (complete t v (release s)) := endTask_next.mpr ⟨t, h, rfl⟩

/-- Failing Tasks in order appends their records in order. -/
theorem failAll_eq (ts : List Task) :
    failAll ts s = { s with out := s.out ++ ts.map (failureRecord .connectionClosed) } := by
  induction ts generalizing s with
  | nil => simp [failAll]
  | cons t ts ih => rw [failAll, complete_error, ih]; simp

theorem failCur_eq (e : LinkError) (t : Option Task) :
    failCur e t s = { s with out := s.out ++ t.toList.map (failureRecord e) } := by
  cases t with
  | none => simp [failCur]
  | some t => rw [failCur, complete_error]; simp

/-- CLOSE and TERR on a closed link do nothing. -/
theorem tearDown_closed (e : LinkError) (h : s.link = .closed) : tearDown e s = s := by
  simp [tearDown, not_isOpen_iff.mpr h]

/-- CLOSE and TERR on an open link clear the registers and leave one record per Task. -/
theorem tearDown_opened (e : LinkError) (h : s.link = .opened) :
    tearDown e s = { disconnect s with
      out := s.out ++ s.cur.toList.map (failureRecord e) ++ s.q.map (failureRecord .connectionClosed) } := by
  simp [tearDown, isOpen_iff.mpr h, failAll_eq, failCur_eq]

/-! ### SUBMIT -/

/-- When SUBMIT accepts, and why it refuses. -/
theorem submitRefusal_cases (s : State) (p : Bytes) :
    (¬ inDomain p ∧ submitRefusal s p = some .payloadLength) ∨
    (inDomain p ∧ s.link = .closed ∧ submitRefusal s p = some .connectionClosed) ∨
    (inDomain p ∧ s.link = .opened ∧ s.queueFull = true ∧ submitRefusal s p = some .queueFull) ∨
    (inDomain p ∧ s.link = .opened ∧ s.queueFull = false ∧ submitRefusal s p = none) := by
  unfold submitRefusal
  by_cases hp : inDomain p
  · cases ho : s.isOpen
    · exact .inr (.inl ⟨hp, not_isOpen_iff.mp ho, by simp [hp]⟩)
    · cases hq : s.queueFull
      · exact .inr (.inr (.inr ⟨hp, isOpen_iff.mp ho, rfl, by simp [hp]⟩))
      · exact .inr (.inr (.inl ⟨hp, isOpen_iff.mp ho, rfl, by simp [hp]⟩))
  · exact .inl ⟨hp, by simp [hp]⟩

theorem queueFull_iff :
    s.queueFull = true ↔ ∃ d, s.cfg.queueDepth = some d ∧ d ≤ s.q.length := by
  unfold State.queueFull
  cases s.cfg.queueDepth <;> simp

/-! ### TICK -/

/-- What TICK.ACCOUNT can do. -/
theorem tickAccount_cases (h : tickAccount s = .next s') :
    (s.toArmed = false ∧ s' = s) ∨
    ∃ t, s.toArmed = true ∧ s.cur = some t ∧
      ((s.toAcc + s.cfg.tickMs < t.timeout ∧ s' = { s with toAcc := s.toAcc + s.cfg.tickMs }) ∨
       (t.timeout ≤ s.toAcc + s.cfg.tickMs ∧
         s' = complete t (.error .requestTimeout) (release { s with toAcc := s.toAcc + s.cfg.tickMs }))) := by
  unfold tickAccount at h
  split at h
  · next ha =>
    cases hc : s.cur with
    | none => simp [hc] at h
    | some t =>
      refine .inr ⟨t, ha, rfl, ?_⟩
      simp only [hc] at h
      split at h
      · next ht =>
        simp only [timeout, raise, endTask_next, Option.some.injEq] at h
        obtain ⟨t', h1, h2⟩ := h
        subst h1
        exact .inr ⟨by simpa [State.timedOut] using ht, h2⟩
      · next ht =>
        refine .inl ⟨by simpa [State.timedOut] using ht, ?_⟩
        simpa [eq_comm] using h
  · next ha => exact .inl ⟨by simpa using ha, by simpa [eq_comm] using h⟩

/-- What TICK can do. -/
theorem execTick_cases (h : execTick s = .next s') :
    (s.link = .closed ∧ s' = s) ∨
    (s.link = .opened ∧ s.arb = .awaitingResponse ∧ tickAccount s = .next s') ∨
    (∃ t q, s.link = .opened ∧ s.arb = .idle ∧ s.q = t :: q ∧ s' = dispatch t { s with q := q }) ∨
    (s.link = .opened ∧ s.arb = .idle ∧ s.q = [] ∧ inDomain s.cfg.pollPayload ∧
      s' = dispatch (pollTask s.cfg) (useCrc s)) := by
  unfold execTick at h
  split at h
  · next ho =>
    split at h
    · next hb => exact .inr (.inl ⟨isOpen_iff.mp ho, busy_iff.mp hb, h⟩)
    · next hb =>
      have hi : s.arb = .idle := not_busy_iff.mp (by simpa using hb)
      split at h
      · next hq =>
        unfold dispatchPoll at h
        split at h
        · next hp =>
          exact .inr (.inr (.inr ⟨isOpen_iff.mp ho, hi, hq, hp, by simpa [eq_comm] using h⟩))
        · simp at h
      · next t q hq =>
        exact .inr (.inr (.inl ⟨t, q, isOpen_iff.mp ho, hi, hq, by simpa [eq_comm] using h⟩))
  · next ho => exact .inl ⟨not_isOpen_iff.mp (by simpa using ho), by simpa [eq_comm] using h⟩

/-! ### RXBYTE -/

/-- What RXFRAME can do. -/
theorem rxFrame_cases {f : Bytes} (h : rxFrame f s = .next s') :
    (s.arb = .idle ∧ s' = s) ∨
    (s.arb = .awaitingResponse ∧ classify s.cfg.poly f = .ack ∧ s' = takeFrame f s) ∨
    ∃ t, s.arb = .awaitingResponse ∧ s.cur = some t ∧
      ((classify s.cfg.poly f = .bad ∧
          s' = complete t (.error .checksumMismatch) (release (sendFrame .nak nakPayload (takeFrame f s)))) ∨
       (classify s.cfg.poly f = .nak ∧ s' = complete t (.error .peerRejected) (release (takeFrame f s))) ∨
       ∃ p, classify s.cfg.poly f = .data p ∧
          s' = complete t (.ok p) (release (sendFrame .ack ackPayload (takeFrame f s)))) := by
  unfold rxFrame at h
  split at h
  · next hb =>
    have ha := busy_iff.mp hb
    refine .inr ?_
    cases hc : classify s.cfg.poly f with
    | bad =>
      simp only [hc, rxClass, rxBad, raise, endTask_next] at h
      obtain ⟨t, h1, h2⟩ := h
      exact .inr ⟨t, ha, by simpa using h1, .inl ⟨rfl, h2⟩⟩
    | ack => exact .inl ⟨ha, rfl, by simpa [hc, rxClass, rxAck, eq_comm] using h⟩
    | nak =>
      simp only [hc, rxClass, rxNak, raise, endTask_next] at h
      obtain ⟨t, h1, h2⟩ := h
      exact .inr ⟨t, ha, by simpa using h1, .inr (.inl ⟨rfl, h2⟩)⟩
    | data p =>
      simp only [hc, rxClass, rxData, endTask_next] at h
      obtain ⟨t, h1, h2⟩ := h
      exact .inr ⟨t, ha, by simpa using h1, .inr (.inr ⟨p, rfl, h2⟩)⟩
  · next hb => exact .inl ⟨not_busy_iff.mp (by simpa using hb), by simpa [eq_comm] using h⟩

/-- DEC.EMIT hands the buffer over: `RXCNT` is at most 255, so the read is always in range. -/
theorem decEmit_eq (s : State) :
    decEmit s = rxFrame (s.rxbuf.bytes 0 s.rxcnt.toNat) (clearAssembler s) := by
  have h : 0 + s.rxcnt.toNat ≤ rxbufSize := by
    have := s.rxcnt.isLt
    simp only [rxbufSize, Config.maxFrame]; omega
  simp only [decEmit, Memory.read, h, if_true]

/-- Storing a byte where `RXBUF` has room. -/
theorem pushByte_eq (b : Byte) (h : s.rxcnt.toNat < 255) :
    pushByte b s = some { s with rxbuf := bufferAfter s b, rxcnt := s.rxcnt + 1 } := by
  unfold pushByte
  rw [Memory.write_one b s.rxbuf (by simpa [rxbufSize, Config.maxFrame] using h)]
  rfl

/-- Without room for the byte nothing is stored. -/
theorem pushByte_full (b : Byte) (h : s.rxcnt.toNat = 255) : pushByte b s = none := by
  unfold pushByte Memory.write
  simp [rxbufSize, Config.maxFrame, h]

theorem rxcnt_succ (h : s.rxcnt.toNat < 255) : (s.rxcnt + 1).toNat = s.rxcnt.toNat + 1 := by
  simp [BitVec.toNat_add]; omega

/-- What RXBYTE can do. -/
theorem execRxbyte_cases {b : Byte} (h : execRxbyte b s = .next s') :
    (s.link = .closed ∧ s' = s) ∨
    (s.link = .opened ∧ s.rxcnt.toNat < 255 ∧ completedFrame s b = none ∧
      s' = { s with rxbuf := bufferAfter s b, rxcnt := s.rxcnt + 1 }) ∨
    ∃ f, s.link = .opened ∧ s.rxcnt.toNat < 255 ∧ completedFrame s b = some f ∧
      rxFrame f { s with rxbuf := bufferAfter s b, rxcnt := 0 } = .next s' := by
  unfold execRxbyte at h
  split at h
  · next ho =>
    have hl := isOpen_iff.mp ho
    have hlt := s.rxcnt.isLt
    by_cases hfull : s.rxcnt.toNat = 255
    · simp [pushByte_full b hfull] at h
    have hr : s.rxcnt.toNat < 255 := by omega
    have hs := rxcnt_succ (s := s) hr
    rw [pushByte_eq b hr] at h
    dsimp only at h
    split at h
    · next hf =>
      rw [frameComplete_iff] at hf
      dsimp only at hf
      rw [hs] at hf
      rw [decEmit_eq] at h
      dsimp only at h
      rw [hs] at h
      exact .inr (.inr ⟨_, hl, hr, by rw [completedFrame, if_pos ⟨hl, hf.1, hf.2⟩], h⟩)
    · next hf =>
      rw [frameComplete_iff] at hf
      dsimp only at hf
      rw [hs] at hf
      refine .inr (.inl ⟨hl, hr, ?_, by simpa [eq_comm] using h⟩)
      rw [completedFrame, if_neg]
      exact fun hc => hf hc.2
  · next ho => exact .inl ⟨not_isOpen_iff.mp (by simpa using ho), by simpa [eq_comm] using h⟩

end Sys2Proof.Machine
end

