-- ==== Sys2Proof/Laws/Input.lean ====
section
/-! SUPPORT. No input event reads or writes the events still to come: what it does is the same whatever `input` holds. -/

namespace Sys2Proof.Machine

/-- A result with `input` replaced in its next state. -/
def withInput (rest : List Bytes) : Result → Result
  | .next s => .next { s with input := rest }
  | .fault r => .fault r
  | .refused r => .refused r

variable (s : State) (rest : List Bytes)

theorem complete_with_input (t : Task) (v : Verdict) :
    complete t v { s with input := rest } = { complete t v s with input := rest } := by
  obtain ⟨k, f, ms⟩ := t
  cases k <;> cases v <;> rfl

theorem endTask_with_input (v : Verdict) : endTask v { s with input := rest } = withInput rest (endTask v s) := by
  unfold endTask
  change (match s.cur with | none => _ | some t => _) = _
  cases s.cur with
  | none => rfl
  | some t => exact congrArg _ (complete_with_input (release s) rest t v)

theorem tearDown_with_input (e : LinkError) :
    tearDown e { s with input := rest } = { tearDown e s with input := rest } := by
  rcases Bool.eq_false_or_eq_true s.isOpen with h | h
  · have ho := isOpen_iff.mp h
    rw [tearDown_opened e ho, tearDown_opened e (s := { s with input := rest }) ho]
    rfl
  · have hc := not_isOpen_iff.mp h
    rw [tearDown_closed e hc, tearDown_closed e (s := { s with input := rest }) hc]

theorem takeFrame_with_input (f : Bytes) :
    takeFrame f { s with input := rest } = { takeFrame f s with input := rest } := by
  unfold takeFrame
  dsimp only
  split <;> rfl

theorem rxClass_with_input (c : FrameClass) : rxClass c { s with input := rest } = withInput rest (rxClass c s) := by
  cases c with
  | bad => exact endTask_with_input (sendFrame .nak nakPayload s) rest _
  | ack => rfl
  | nak => exact endTask_with_input s rest _
  | data p => exact endTask_with_input (sendFrame .ack ackPayload s) rest _

theorem rxFrame_with_input (f : Bytes) : rxFrame f { s with input := rest } = withInput rest (rxFrame f s) := by
  unfold rxFrame
  rw [takeFrame_with_input]
  change (if s.busy then rxClass (classify s.cfg.poly f) { takeFrame f s with input := rest } else _) = _
  rw [rxClass_with_input]
  split <;> rfl

theorem decEmit_with_input : decEmit { s with input := rest } = withInput rest (decEmit s) := by
  rw [decEmit_eq, decEmit_eq]
  exact rxFrame_with_input { s with rxcnt := 0 } rest _

theorem timedOut_with_input (t : Task) :
    (if State.timedOut { s with input := rest } t then timeout { s with input := rest }
      else .next { s with input := rest }) = withInput rest (if s.timedOut t then timeout s else .next s) := by
  change (if s.timedOut t then _ else _) = _
  split
  · exact endTask_with_input s rest _
  · rfl

theorem tickAccount_with_input : tickAccount { s with input := rest } = withInput rest (tickAccount s) := by
  obtain ⟨cfg, link, arb, cur, q, toArmed, toAcc, rxbuf, rxcnt, lastStatus, crc, out, free, ret, input, probe⟩ := s
  cases toArmed with
  | false => rfl
  | true =>
    cases cur with
    | none => rfl
    | some t =>
      exact timedOut_with_input ⟨cfg, link, arb, some t, q, true, toAcc + cfg.tickMs, rxbuf, rxcnt, lastStatus, crc,
        out, free, ret, input, probe⟩ rest t

theorem dispatchPoll_with_input : dispatchPoll { s with input := rest } = withInput rest (dispatchPoll s) := by
  unfold dispatchPoll
  dsimp only
  split <;> rfl

theorem execTick_with_input : execTick { s with input := rest } = withInput rest (execTick s) := by
  obtain ⟨cfg, link, arb, cur, q, toArmed, toAcc, rxbuf, rxcnt, lastStatus, crc, out, free, ret, input, probe⟩ := s
  cases link with
  | closed => rfl
  | opened =>
    cases arb with
    | awaitingResponse => exact tickAccount_with_input ⟨cfg, _, _, _, _, _, _, _, _, _, _, _, _, _, input, _⟩ rest
    | idle =>
      cases q with
      | nil => exact dispatchPoll_with_input ⟨cfg, _, _, _, _, _, _, _, _, _, _, _, _, _, input, _⟩ rest
      | cons t q => rfl

theorem execRxbyte_with_input (b : Byte) : execRxbyte b { s with input := rest } = withInput rest (execRxbyte b s) := by
  unfold execRxbyte pushByte
  change (if s.isOpen then
    match (s.rxbuf.write s.rxcnt.toNat [b]).map
      fun m => { ({ s with input := rest } : State) with rxbuf := m, rxcnt := s.rxcnt + 1 } with
    | none => _
    | some s' => _ else _) = _
  split
  · cases s.rxbuf.write s.rxcnt.toNat [b] with
    | none => rfl
    | some m =>
      change (if State.frameComplete { s with rxbuf := m, rxcnt := s.rxcnt + 1 } then _ else _) = _
      dsimp only [Option.map]
      split
      · exact decEmit_with_input { s with rxbuf := m, rxcnt := s.rxcnt + 1 } rest
      · rfl
  · rfl

/-- What an event does does not depend on the events after it. -/
theorem exec_with_input (i : Instr) (he : i.isEvent = true) :
    exec i { s with input := rest } = withInput rest (exec i s) := by
  cases i <;> simp only [Instr.isEvent, Bool.false_eq_true] at he
  case closeLink => exact congrArg _ (tearDown_with_input s rest _)
  case terr => exact congrArg _ (tearDown_with_input s rest _)
  case submit tag p ms =>
    simp only [exec, execSubmit]
    change (match submitRefusal s p with | some e => _ | none => _) = _
    cases submitRefusal s p <;> rfl
  case tick => exact execTick_with_input s rest
  case rxbyte b => exact execRxbyte_with_input s rest b
  all_goals rfl

end Sys2Proof.Machine
end

