-- ==== Sys2Proof/Laws/PerInstr.lean ====
section
/-! SUPPORT. Statements made for each operation of the table, one lemma per constructor of `Instr`. -/

namespace Sys2Proof.Laws.RecordHead

/-- The record of a well-formed operation begins with its head, and the head is one of the sixteen event-select codes of
30_encoding.md R81 exactly when the operation is an input event (log entries 2 and 3). -/
def Statement (i : Instr) : Prop :=
  i.wellFormed = true → (encode i).head? = some i.head ∧ (i.head.toNat < 16 ↔ i.isEvent = true)

/-- The statement from the value of the head and the kind of the operation. -/
theorem of_head {i : Instr} (n : Nat) (event : Bool) (hn : i.head.toNat = n) (he : i.isEvent = event)
    (h : decide (n < 16) = event) : Statement i := fun _ => by
  subst hn he
  exact ⟨rfl, by simp [← h]⟩

theorem reset : Statement .reset := of_head 0x00 true rfl rfl rfl

theorem openLink : Statement .openLink := of_head 0x01 true rfl rfl rfl

theorem closeLink : Statement .closeLink := of_head 0x02 true rfl rfl rfl

theorem terr : Statement .terr := of_head 0x03 true rfl rfl rfl

theorem submit (tag : Nat) (p : Bytes) (timeoutMs : Nat) :
    Statement (.submit tag p timeoutMs) := of_head 0x04 true rfl rfl rfl

theorem tick : Statement .tick := of_head 0x05 true rfl rfl rfl

theorem rxbyte (b : Byte) : Statement (.rxbyte b) := of_head 0x06 true rfl rfl rfl

theorem evReserved (ev : BitVec 4) : Statement (.evReserved ev) := fun _ =>
  ⟨rfl, by have := ev.isLt; simp [Instr.head, Instr.isEvent]; omega⟩

theorem submitPayloadLength (tag : Nat) (p : Bytes) (timeoutMs : Nat) :
    Statement (.submitPayloadLength tag p timeoutMs) := of_head 0x10 false rfl rfl rfl

theorem submitQueueFull (tag : Nat) (p : Bytes) (timeoutMs : Nat) :
    Statement (.submitQueueFull tag p timeoutMs) := of_head 0x11 false rfl rfl rfl

theorem tickAccount : Statement .tickAccount := of_head 0x20 false rfl rfl rfl

theorem dispatch (t : Task) : Statement (.dispatch t) := of_head 0x21 false rfl rfl rfl

theorem pollSynth : Statement .pollSynth := of_head 0x22 false rfl rfl rfl

theorem timeout : Statement .timeout := of_head 0x23 false rfl rfl rfl

theorem rxFrame (f : Bytes) : Statement (.rxFrame f) := of_head 0x24 false rfl rfl rfl

theorem complete (t : Task) (v : Verdict) : Statement (.complete t v) := of_head 0x25 false rfl rfl rfl

theorem rxIdle (f : Bytes) : Statement (.rxIdle f) := of_head 0x30 false rfl rfl rfl

theorem rxBad : Statement .rxBad := of_head 0x31 false rfl rfl rfl

theorem rxAck : Statement .rxAck := of_head 0x32 false rfl rfl rfl

theorem rxNak : Statement .rxNak := of_head 0x33 false rfl rfl rfl

theorem rxData (p : Bytes) : Statement (.rxData p) := of_head 0x34 false rfl rfl rfl

theorem txReq (p : Bytes) : Statement (.txReq p) := of_head 0x40 false rfl rfl rfl

theorem txAck : Statement .txAck := of_head 0x41 false rfl rfl rfl

theorem txNak : Statement .txNak := of_head 0x42 false rfl rfl rfl

theorem encFrame (p : Bytes) : Statement (.encFrame p) := of_head 0x50 false rfl rfl rfl

theorem decEmit : Statement .decEmit := of_head 0x26 false rfl rfl rfl

theorem decPayload (f : Bytes) : Statement (.decPayload f) := of_head 0x51 false rfl rfl rfl

theorem decClear : Statement .decClear := of_head 0x27 false rfl rfl rfl

theorem crcInit : Statement .crcInit := of_head 0x52 false rfl rfl rfl

theorem crcBit (c : Word16) : Statement (.crcBit c) := of_head 0x53 false rfl rfl rfl

theorem crcByte (c : Word16) (b : Byte) : Statement (.crcByte c b) := of_head 0x54 false rfl rfl rfl

theorem crcGen (bs : Bytes) : Statement (.crcGen bs) := of_head 0x55 false rfl rfl rfl

theorem crcAppend (h : Bytes) : Statement (.crcAppend h) := of_head 0x56 false rfl rfl rfl

theorem crcVerify (f : Bytes) : Statement (.crcVerify f) := of_head 0x57 false rfl rfl rfl

end Sys2Proof.Laws.RecordHead
end

