-- ==== Sys2Proof/Tests/Slice0.lean ====
section
/-! SUPPORT. The model's own tests: ill-formed operations are refused, records decode to the operations they stand for,
one operation on a small state gives what the vectors of spec/95_test_vectors.md say, and for each statement a state and
operands that meet its hypotheses. Expected values come from the spec; the vector is named in each comment. -/

namespace Sys2Proof.Tests

set_option Elab.async false

open Sys2Proof Sys2Proof.Machine

/-! ## Small states -/

/-- The state after `RESET; OPEN`. -/
def openIdle : State := { State.reset with link := .opened }

/-- The Task of `SUBMIT 7 [30] 1000` (42_arbiter.md R143's example). -/
def taskA : Task := ⟨.host 7, [0x02, 0x03, 0x06, 0x30, 0x41, 0xB3], 1000⟩

/-- The Task of `SUBMIT 8 [37] 0` (V43). -/
def taskB : Task := ⟨.host 8, [0x02, 0x03, 0x06, 0x37, 0xFE, 0xC7], 0⟩

/-- The default Poll (42_arbiter.md R149). -/
def pollA : Task := ⟨.poll, [0x02, 0x03, 0x06, 0x33, 0xDA, 0x81], 1000⟩

/-- A Task in flight, its timeout armed, no tick since. -/
def inFlight (t : Task) : State :=
  { openIdle with arb := .awaitingResponse, cur := some t, toArmed := true }

/-- Five of the six bytes of `02 03 06 19 82 0F` in the assembler. -/
def fiveBytes (s : State) : State :=
  { s with rxbuf := [⟨0, 0x02⟩, ⟨1, 0x03⟩, ⟨2, 0x06⟩, ⟨3, 0x19⟩, ⟨4, 0x82⟩], rxcnt := 5 }

/-- A view of the next state, where there is one. -/
def view {α : Type} (f : State → α) : Result → Option α
  | .next s => some (f s)
  | .fault _ => none
  | .refused _ => none

/-- A payload of `n` bytes. -/
def bytesOf (n : Nat) : Bytes := List.replicate n 0x55

/-! ## Ill-formed operations are refused -/

/-- 30_encoding.md R81: 6 is RXBYTE, not reserved. -/
theorem test_wf_event : (Instr.evReserved 6).wellFormed = false ∧ (Instr.evReserved 7).wellFormed = true ∧
    (Instr.evReserved 15).wellFormed = true := by decide +kernel

/-- 42_arbiter.md R144, R145: the payloads of the two refusal rows. -/
theorem test_wf_refusals : (Instr.submitPayloadLength 7 [0x30] 0).wellFormed = false ∧
    (Instr.submitQueueFull 7 [] 0).wellFormed = false ∧ (Instr.submitPayloadLength 7 [] 0).wellFormed = true := by
  decide +kernel

/-- 10_state.md R31: a Task's frame has 6 to 255 bytes. -/
theorem test_wf_task : (Instr.dispatch ⟨.poll, bytesOf 5, 0⟩).wellFormed = false ∧
    (Instr.dispatch ⟨.poll, bytesOf 256, 0⟩).wellFormed = false ∧
    (Instr.complete ⟨.poll, bytesOf 5, 0⟩ (.ok [])).wellFormed = false := by decide +kernel

/-- 30_encoding.md R83: a record's payload has at most 250 bytes. -/
theorem test_wf_verdict : (Instr.complete pollA (.ok (bytesOf 251))).wellFormed = false ∧
    (Instr.complete pollA (.ok (bytesOf 250))).wellFormed = true := by decide +kernel

/-- 42_arbiter.md R151: an assembled frame has 3 to 255 bytes. -/
theorem test_wf_frames : (Instr.rxFrame (bytesOf 2)).wellFormed = false ∧
    (Instr.rxFrame (bytesOf 256)).wellFormed = false ∧ (Instr.rxIdle (bytesOf 2)).wellFormed = false ∧
    (Instr.rxIdle (bytesOf 255)).wellFormed = true := by decide +kernel

/-- 30_encoding.md R78: the markers are no data, and data has at most 250 bytes. -/
theorem test_wf_data : (Instr.rxData [0x00]).wellFormed = false ∧ (Instr.rxData [0xFF]).wellFormed = false ∧
    (Instr.rxData (bytesOf 251)).wellFormed = false ∧ (Instr.rxData []).wellFormed = true := by decide +kernel

/-- 41_frame_codec.md R120: the encoder's domain. -/
theorem test_wf_payloads : (Instr.txReq []).wellFormed = false ∧ (Instr.txReq (bytesOf 251)).wellFormed = false ∧
    (Instr.encFrame []).wellFormed = false ∧ (Instr.encFrame (bytesOf 250)).wellFormed = true := by decide +kernel

/-- 41_frame_codec.md R124, 40_checksum.md R105: at least five bytes. -/
theorem test_wf_short : (Instr.decPayload (bytesOf 4)).wellFormed = false ∧
    (Instr.crcVerify (bytesOf 4)).wellFormed = false ∧ (Instr.crcVerify (bytesOf 5)).wellFormed = true := by
  decide +kernel

/-- The decoder refuses by name: no byte, no such head, a cut operand, an ill-formed operand. -/
theorem test_decode_refuses : decode [] = .error .emptyRecord ∧ decode [0xEE] = .error (.unknownHead 0xEE) ∧
    decode [0x04, 0x07, 0x02, 0x30] = .error (.badOperand 0x04) ∧ decode [0x50, 0x00] = .error (.illFormed 0x50) :=
  ⟨rfl, rfl, rfl, rfl⟩

/-! ## Records and words -/

/-- The event codes of 30_encoding.md R81; a timeout of 1000 is `68 + 7 * 128` in seven-bit groups. -/
theorem test_decode_events :
    decode [0x00] = .ok (.reset, []) ∧ decode [0x01] = .ok (.openLink, []) ∧ decode [0x02] = .ok (.closeLink, []) ∧
    decode [0x03] = .ok (.terr, []) ∧ decode [0x04, 0x07, 0x01, 0x30, 0xE8, 0x07] = .ok (.submit 7 [0x30] 1000, []) ∧
    decode [0x05] = .ok (.tick, []) ∧ decode [0x06, 0x82] = .ok (.rxbyte 0x82, []) ∧
    decode [0x09] = .ok (.evReserved 9, []) :=
  ⟨rfl, rfl, rfl, rfl, rfl, rfl, rfl, rfl⟩

/-- The outcomes of SUBMIT and the internal steps. -/
theorem test_decode_steps :
    decode [0x10, 0x07, 0x00, 0x00] = .ok (.submitPayloadLength 7 [] 0, []) ∧
    decode [0x11, 0x07, 0x01, 0x30, 0x00] = .ok (.submitQueueFull 7 [0x30] 0, []) ∧
    decode [0x20] = .ok (.tickAccount, []) ∧
    decode [0x21, 0x01, 0x06, 0x02, 0x03, 0x06, 0x33, 0xDA, 0x81, 0xE8, 0x07] = .ok (.dispatch pollA, []) ∧
    decode [0x22] = .ok (.pollSynth, []) ∧ decode [0x23] = .ok (.timeout, []) ∧
    decode [0x24, 0x03, 0x02, 0x03, 0x00] = .ok (.rxFrame [0x02, 0x03, 0x00], []) ∧
    decode [0x25, 0x00, 0x08, 0x06, 0x02, 0x03, 0x06, 0x37, 0xFE, 0xC7, 0x00, 0x03] =
      .ok (.complete taskB (.error .peerRejected), []) ∧
    decode [0x26] = .ok (.decEmit, []) ∧ decode [0x27] = .ok (.decClear, []) :=
  ⟨rfl, rfl, rfl, rfl, rfl, rfl, rfl, rfl, rfl, rfl⟩

/-- The classes of a received frame and the transmitted frames. -/
theorem test_decode_frames :
    decode [0x30, 0x03, 0x02, 0x03, 0x00] = .ok (.rxIdle [0x02, 0x03, 0x00], []) ∧ decode [0x31] = .ok (.rxBad, []) ∧
    decode [0x32] = .ok (.rxAck, []) ∧ decode [0x33] = .ok (.rxNak, []) ∧
    decode [0x34, 0x01, 0x19] = .ok (.rxData [0x19], []) ∧ decode [0x40, 0x01, 0x33] = .ok (.txReq [0x33], []) ∧
    decode [0x41] = .ok (.txAck, []) ∧ decode [0x42] = .ok (.txNak, []) :=
  ⟨rfl, rfl, rfl, rfl, rfl, rfl, rfl, rfl⟩

/-- The functions; a 16-bit operand has its low byte first. -/
theorem test_decode_functions :
    decode [0x50, 0x01, 0x33] = .ok (.encFrame [0x33], []) ∧
    decode [0x51, 0x05, 0x02, 0x03, 0x05, 0x7D, 0xC8] = .ok (.decPayload [0x02, 0x03, 0x05, 0x7D, 0xC8], []) ∧
    decode [0x52] = .ok (.crcInit, []) ∧ decode [0x53, 0x08, 0x84] = .ok (.crcBit 0x8408, []) ∧
    decode [0x54, 0x12, 0x23, 0x03] = .ok (.crcByte 0x2312 0x03, []) ∧ decode [0x55, 0x00] = .ok (.crcGen [], []) ∧
    decode [0x56, 0x01, 0x02] = .ok (.crcAppend [0x02], []) ∧
    decode [0x57, 0x05, 0x02, 0x03, 0x05, 0x7D, 0xC8] = .ok (.crcVerify [0x02, 0x03, 0x05, 0x7D, 0xC8], []) :=
  ⟨rfl, rfl, rfl, rfl, rfl, rfl, rfl, rfl⟩

/-- V40 to V42 and R79's table against the classes of R78: the three frames with the default parameters. -/
theorem test_frames_of_the_table :
    classify 0x8408 [0x02, 0x03, 0x06, 0x00, 0xC2, 0x82] = .ack ∧
    classify 0x8408 [0x02, 0x03, 0x06, 0xFF, 0xBA, 0x8D] = .nak ∧
    classify 0x8408 [0x02, 0x03, 0x06, 0x33, 0xDA, 0x81] = .data [0x33] := by decide +kernel

/-- A word of the table is the first operation after reset: OPEN opens the link, TX.ACK transmits V40. -/
theorem test_fetch_word :
    view State.link (step (State.reset.withFetchWord 4 1)) = some .opened ∧
    view State.tx (step (State.reset.withFetchWord 48 0x02030600C282)) = some [0x02, 0x03, 0x06, 0x00, 0xC2, 0x82] := by
  decide +kernel

/-! ## The checksum unit -/

/-- 40_checksum.md R100. -/
theorem test_crcInit : view State.crc (exec .crcInit { openIdle with crc := 0x1234 }) = some 0x0000 := by decide +kernel

/-- V2, V3. -/
theorem test_crcBit : view State.crc (exec (.crcBit 0x0001) openIdle) = some 0x8408 ∧
    view State.crc (exec (.crcBit 0x0002) openIdle) = some 0x0001 := by decide +kernel

/-- V7, V8: bit 0 of the byte is first. -/
theorem test_crcByte : view State.crc (exec (.crcByte 0x0000 0x02) openIdle) = some 0x2312 ∧
    view State.crc (exec (.crcByte 0x0000 0x80) openIdle) = some 0x8408 := by decide +kernel

/-- V12, the check string of nine digits. -/
theorem test_crcGen : view State.ret (exec (.crcGen [0x31, 0x32, 0x33, 0x34, 0x35, 0x36, 0x37, 0x38, 0x39]) openIdle) =
    some (.word 0x2189) := by decide +kernel

/-- V30: low byte first. -/
theorem test_crcAppend : view State.ret (exec (.crcAppend [0x02, 0x03, 0x06, 0x00]) openIdle) =
    some (.bytes [0x02, 0x03, 0x06, 0x00, 0xC2, 0x82]) := by decide +kernel

/-- V31, and V32's swapped checksum bytes. -/
theorem test_crcVerify :
    view State.ret (exec (.crcVerify [0x02, 0x03, 0x06, 0x33, 0xDA, 0x81]) openIdle) = some (.flag true) ∧
    view State.ret (exec (.crcVerify [0x02, 0x03, 0x06, 0x33, 0x81, 0xDA]) openIdle) = some (.flag false) := by
  decide +kernel

/-! ## The frame codec -/

/-- V45. -/
theorem test_encFrame : view State.ret (exec (.encFrame [0x34, 0xFF, 0xFF, 0xFF, 0x00, 0x00, 0x00]) openIdle) =
    some (.bytes [0x02, 0x03, 0x0C, 0x34, 0xFF, 0xFF, 0xFF, 0x00, 0x00, 0x00, 0xB5, 0xC1]) := by decide +kernel

/-- Payload extraction, section 2.2: two bytes, and none. -/
theorem test_decPayload :
    view State.ret (exec (.decPayload [0x02, 0x03, 0x07, 0x1C, 0x60, 0x77, 0xE0]) openIdle) = some (.bytes [0x1C, 0x60]) ∧
    view State.ret (exec (.decPayload [0x02, 0x03, 0x05, 0x7D, 0xC8]) openIdle) = some (.bytes []) := by decide +kernel

/-- 41_frame_codec.md R125. -/
theorem test_decClear : view State.rxcnt (exec .decClear (fiveBytes openIdle)) = some 0 := by decide +kernel

/-- V20, V50: the sixth byte completes the frame; the ACK frame goes out before the record. -/
theorem test_rxbyte_completes : view (fun s => (s.out, s.rxcnt)) (exec (.rxbyte 0x0F) (fiveBytes (inFlight taskA))) =
    some ([.tx .ack [0x02, 0x03, 0x06, 0x00, 0xC2, 0x82], .compl 7 (.ok [0x19])], 0) := by decide +kernel

/-- V29: the 254th byte of a 255-byte frame does not complete it, the 255th does. -/
theorem test_rxbyte_boundary :
    view State.rxcnt (exec (.rxbyte 0x55) { openIdle with rxbuf := [⟨2, 0xFF⟩], rxcnt := 253 }) = some 254 ∧
    view State.rxcnt (exec (.rxbyte 0x55) { openIdle with rxbuf := [⟨2, 0xFF⟩], rxcnt := 254 }) = some 0 := by
  decide +kernel

/-- V25 with a Task in flight (V59): three bytes go over as a frame, which is bad. -/
theorem test_decEmit : view (fun s => (s.out, s.rxcnt))
      (exec .decEmit { inFlight taskA with rxbuf := [⟨0, 0xAA⟩, ⟨1, 0xBB⟩, ⟨2, 0x01⟩], rxcnt := 3 }) =
    some ([.tx .nak [0x02, 0x03, 0x06, 0xFF, 0xBA, 0x8D], .compl 7 (.error .checksumMismatch)], 0) := by decide +kernel

/-! ## Link events and submission -/

/-- 70_reset_and_hazards.md R240: pending Tasks vanish without a record. -/
theorem test_reset : view (fun s => (s.link, s.cur, s.q, s.lastStatus))
      (exec .reset { inFlight taskA with q := [taskB], lastStatus := some [0x19] }) =
        some (.closed, none, [], none) ∧
    view State.out (exec .reset { inFlight taskA with q := [taskB] }) = some [] := by decide +kernel

/-- 42_arbiter.md R141. -/
theorem test_open : view State.link (exec .openLink State.reset) = some .opened := by decide +kernel

/-- 42_arbiter.md R142's example: the in-flight Task first. -/
theorem test_close : view State.compl (exec .closeLink { inFlight taskA with q := [taskB] }) =
    some [(7, .error .connectionClosed), (8, .error .connectionClosed)] := by decide +kernel

/-- 42_arbiter.md R160, and V87. -/
theorem test_terr : view State.compl (exec .terr { inFlight taskA with q := [taskB] }) =
      some [(7, .error .transportError), (8, .error .connectionClosed)] ∧
    view State.status (exec .terr (inFlight pollA)) = some [.pollError .transportError] := by decide +kernel

/-- V70: the Task waits with its frame; nothing is transmitted. -/
theorem test_submit_queues : view (fun s => (s.q, s.out)) (exec (.submit 7 [0x30] 1000) openIdle) =
    some ([taskA], []) := by decide +kernel

/-- V74, V75: the length test comes before the link test. -/
theorem test_submit_refused :
    view State.compl (exec (.submit 7 [] 1000) State.reset) = some [(7, .error .payloadLength)] ∧
    view State.compl (exec (.submit 7 [0x30] 1000) State.reset) = some [(7, .error .connectionClosed)] := by
  decide +kernel

/-- V71. -/
theorem test_submitPayloadLength : view State.compl (exec (.submitPayloadLength 7 [] 1000) openIdle) =
    some [(7, .error .payloadLength)] := by decide +kernel

/-- V76. -/
theorem test_submitQueueFull : view State.compl (exec (.submitQueueFull 9 [0x30] 0)
      { openIdle with cfg := { Config.defaults with queueDepth := some 1 }, q := [taskA] }) =
    some [(9, .error .queueFull)] := by decide +kernel

/-- V88. -/
theorem test_evReserved : exec (.evReserved 12) (inFlight taskA) = .next (inFlight taskA) := rfl

/-! ## The tick -/

/-- 42_arbiter.md R141's example: an idle tick sends the Poll; V83: one dispatch per tick. -/
theorem test_tick_dispatches :
    view State.tx (exec .tick openIdle) = some [0x02, 0x03, 0x06, 0x33, 0xDA, 0x81] ∧
    view (fun s => (s.tx, s.q)) (exec .tick { openIdle with q := [taskA, taskB] }) =
      some ([0x02, 0x03, 0x06, 0x30, 0x41, 0xB3], [taskB]) := by decide +kernel

/-- V82: the tick that times a Task out does not dispatch the next one. -/
theorem test_tick_times_out : view (fun s => (s.out, s.q, s.arb))
      (exec .tick { inFlight taskA with toAcc := 900, q := [taskB] }) =
    some ([.compl 7 (.error .requestTimeout)], [taskB], .idle) := by decide +kernel

/-- V79: 100 is below 101, 200 is not. -/
theorem test_tickAccount :
    view (fun s => (s.toAcc, s.busy)) (exec .tickAccount (inFlight { taskA with timeout := 101 })) = some (100, true) ∧
    view (fun s => (s.toAcc, s.busy)) (exec .tickAccount { inFlight { taskA with timeout := 101 } with toAcc := 100 }) =
      some (200, false) := by decide +kernel

/-- 42_arbiter.md R148's example, and V81: a timeout of 0 is not armed. -/
theorem test_dispatch :
    view (fun s => (s.tx, s.toArmed, s.toAcc)) (exec (.dispatch taskA) { openIdle with toAcc := 300 }) =
      some ([0x02, 0x03, 0x06, 0x30, 0x41, 0xB3], true, 0) ∧
    view State.toArmed (exec (.dispatch taskB) openIdle) = some false := by decide +kernel

/-- 42_arbiter.md R149 with the defaults. -/
theorem test_pollSynth : view State.ret (exec .pollSynth openIdle) = some (.task pollA) := by decide +kernel

/-- 42_arbiter.md R150: the partial frame is kept. -/
theorem test_timeout : view (fun s => (s.out, s.rxcnt, s.cur)) (exec .timeout (fiveBytes (inFlight taskA))) =
    some ([.compl 7 (.error .requestTimeout)], 5, none) := by decide +kernel

/-! ## A frame arrives -/

/-- V56 (empty payload is data), V52 (an ACK marker). -/
theorem test_rxFrame :
    view State.compl (exec (.rxFrame [0x02, 0x03, 0x05, 0x7D, 0xC8]) (inFlight taskA)) = some [(7, .ok [])] ∧
    view (fun s => (s.out, s.busy, s.toArmed)) (exec (.rxFrame [0x02, 0x03, 0x06, 0x00, 0xC2, 0x82]) (inFlight taskA)) =
      some ([], true, false) := by decide +kernel

/-- V61. -/
theorem test_rxIdle : exec (.rxIdle [0x02, 0x03, 0x06, 0x19, 0x82, 0x0F]) openIdle = .next openIdle := rfl

/-- V57. -/
theorem test_rxBad : view State.out (exec .rxBad (inFlight taskA)) =
    some [.tx .nak [0x02, 0x03, 0x06, 0xFF, 0xBA, 0x8D], .compl 7 (.error .checksumMismatch)] := by decide +kernel

/-- V52. -/
theorem test_rxAck : exec .rxAck (inFlight taskA) = .next (inFlight taskA) := rfl

/-- V53. -/
theorem test_rxNak : view State.out (exec .rxNak (inFlight taskA)) = some [.compl 7 (.error .peerRejected)] := by
  decide +kernel

/-- V84: the same status again. -/
theorem test_rxData : view State.out (exec (.rxData [0x19]) { inFlight pollA with lastStatus := some [0x19] }) =
    some [.tx .ack [0x02, 0x03, 0x06, 0x00, 0xC2, 0x82], .status [0x19] false] := by decide +kernel

/-- 42_arbiter.md R157's example, and V85: a host Task leaves `LASTSTATUS`. -/
theorem test_complete :
    view (fun s => (s.status, s.lastStatus)) (exec (.complete pollA (.ok [0x14])) { openIdle with lastStatus := some [0x19] }) =
      some ([.code [0x14] true], some [0x14]) ∧
    view (fun s => (s.compl, s.lastStatus)) (exec (.complete taskA (.ok [0x19])) openIdle) =
      some ([(7, .ok [0x19])], none) := by decide +kernel

/-- V43. -/
theorem test_txReq : view State.tx (exec (.txReq [0x38]) openIdle) = some [0x02, 0x03, 0x06, 0x38, 0x09, 0x3F] := by
  decide +kernel

/-- V40. -/
theorem test_txAck : view State.tx (exec .txAck openIdle) = some [0x02, 0x03, 0x06, 0x00, 0xC2, 0x82] := by
  decide +kernel

/-- V41. -/
theorem test_txNak : view State.tx (exec .txNak openIdle) = some [0x02, 0x03, 0x06, 0xFF, 0xBA, 0x8D] := by
  decide +kernel

/-! ## Witnesses: for each statement with hypotheses, a state and operands that meet them together -/

/-- A legal state that is open and idle meets the invariant (R39), with a queued host Task. -/
def queued : State := { openIdle with q := [taskA] }

/-- The same with an event record to come. -/
def ticking : State := { queued with input := [[0x05]] }

theorem test_queued_frame : encoded Config.defaults taskA.frame := ⟨[0x30], by decide +kernel, by decide +kernel⟩

theorem test_queued_inv : BlockInv queued where
  busy_iff := by simp [State.busy, queued, openIdle, State.reset]
  armed := by simp [queued, openIdle, State.reset]
  acc := ⟨0, rfl⟩
  closed := by simp [queued, openIdle]
  assembler := by decide +kernel
  queue := by
    intro t ht
    obtain rfl : t = taskA := by simpa [queued] using ht
    exact ⟨⟨7, rfl⟩, test_queued_frame⟩
  inflight := by simp [queued, openIdle, State.reset]
  single_flight := by simp [queued, openIdle, State.reset]
  sent := by simp [queued, openIdle, State.reset]
  memory := by decide +kernel
  config := by decide +kernel
  events := rfl

theorem test_ticking_inv : BlockInv ticking where
  busy_iff := test_queued_inv.busy_iff
  armed := test_queued_inv.armed
  acc := test_queued_inv.acc
  closed := test_queued_inv.closed
  assembler := test_queued_inv.assembler
  queue := test_queued_inv.queue
  inflight := test_queued_inv.inflight
  single_flight := test_queued_inv.single_flight
  sent := test_queued_inv.sent
  memory := test_queued_inv.memory
  config := test_queued_inv.config
  events := rfl

theorem test_witness_DecodeInvertsEncode : (Instr.submit 300 [0x30] 1000).wellFormed = true ∧
    (Instr.evReserved 7).wellFormed = true ∧ (Instr.evReserved 15).wellFormed = true ∧
    (Instr.complete pollA (.ok [])).wellFormed = true := by decide +kernel

theorem test_witness_TableWordsDecode : (7 ≤ 7 ∧ 7 ≤ 15) ∧ (7 ≤ 15 ∧ 15 ≤ 15) := by decide +kernel

/-- Bodies of at least three bytes for each of the four classes, and a frame of four bytes (V26, V27, V52, V53, V57). -/
theorem test_witness_FrameClassByChecksumAndPayload :
    ([0x02, 0x03, 0x04, 0x99] : Bytes).length < 5 ∧
    (3 ≤ ([0x02, 0x03, 0x05] : Bytes).length ∧ classify 0x8408 ([0x02, 0x03, 0x05] ++ [0x7D, 0xC8]) = .data []) ∧
    (3 ≤ ([0x02, 0x03, 0x06, 0x00] : Bytes).length ∧ classify 0x8408 ([0x02, 0x03, 0x06, 0x00] ++ [0xC2, 0x82]) = .ack) ∧
    (3 ≤ ([0x02, 0x03, 0x06, 0xFF] : Bytes).length ∧ classify 0x8408 ([0x02, 0x03, 0x06, 0xFF] ++ [0xBA, 0x8D]) = .nak) ∧
    classify 0x8408 ([0x02, 0x03, 0x06, 0x19] ++ [0x82, 0x0E]) = .bad := by decide +kernel

theorem test_witness_ErrorCodesAreTheTable :
    ((0 : BitVec 4) = 0 ∨ 9 ≤ (0 : BitVec 4).toNat) ∧ 9 ≤ (9 : BitVec 4).toNat ∧ 9 ≤ (15 : BitVec 4).toNat := by
  decide +kernel

theorem test_witness_CrcInitAndCrcBit :
    (0x0001 : Word16).getLsbD 0 = true ∧ (0x8408 : Word16).getLsbD 0 = false := by decide +kernel

theorem test_witness_CrcVerifyComparesBothBytes :
    3 ≤ ([0x02, 0x03, 0x05] : Bytes).length ∧ (bytesOf 4).length < 5 ∧ (bytesOf 0).length < 5 := by decide +kernel

/-- V35. -/
theorem test_witness_ChecksumIsLinearAndSkipsLeadingZeros :
    ([0x02, 0x03, 0x06, 0x00] : Bytes).length = ([0x00, 0x00, 0x00, 0xFF] : Bytes).length := by decide +kernel

/-- V34: a zero residue. -/
theorem test_witness_ZeroResidueMeansVerified : (0x8408 : Word16).getLsbD 15 = true ∧
    crc16 0x8408 ([0x02, 0x03, 0x06, 0x00] ++ [0xC2, 0x82]) = 0 := by decide +kernel

theorem test_witness_SingleBitCorruptionIsDetected : (0x8408 : Word16).getLsbD 15 = true ∧
    5 < (crcAppend 0x8408 [0x02, 0x03, 0x06, 0x00]).length ∧ 7 < 8 := by decide +kernel

/-- The ends of the domain and just outside it. -/
theorem test_witness_EncFrameBuildsTheFrame :
    (1 ≤ (bytesOf 1).length ∧ (bytesOf 1).length ≤ 250) ∧ (1 ≤ (bytesOf 250).length ∧ (bytesOf 250).length ≤ 250) ∧
    (bytesOf 0).length = 0 ∧ 250 < (bytesOf 251).length := by decide +kernel

theorem test_witness_EncodedFramesHaveTheirLengthAndVerify :
    (1 ≤ (bytesOf 1).length ∧ (bytesOf 1).length ≤ 250) ∧ (1 ≤ (bytesOf 250).length ∧ (bytesOf 250).length ≤ 250) := by
  decide +kernel

theorem test_witness_DecPayloadStripsHeaderAndChecksum :
    ([0x02, 0x03, 0x05] : Bytes).length = 3 ∧ ([0x7D, 0xC8] : Bytes).length = 2 ∧ (bytesOf 4).length < 5 := by
  decide +kernel

/-- Closed; open with an empty assembler and with room for one byte. -/
theorem test_witness_RxbyteStoresAndTestsForCompletion :
    State.reset.link = .closed ∧
    (openIdle.link = .opened ∧ openIdle.rxcnt.toNat ≤ 254) ∧ { openIdle with rxcnt := 254 }.rxcnt.toNat ≤ 254 := by decide +kernel

theorem test_witness_FramesAreAlwaysConsumed : openIdle.arb = .idle ∧ (inFlight taskA).cur ≠ none := by decide +kernel

/-- Length bytes 0 (V24) and 4 (V26). -/
theorem test_witness_StreamIsCutByTheThirdByte :
    openIdle.link = .opened ∧ openIdle.rxcnt = 0 ∧ openIdle.rxbuf.wf = true ∧
    ([0x02, 0x03, 0x00] : Bytes).length = frameSize [0x02, 0x03, 0x00] ∧
    ([0x02, 0x03, 0x04, 0x99] : Bytes).length = frameSize [0x02, 0x03, 0x04, 0x99] ∧
    (0x02 :: 0x03 :: 0xFF :: bytesOf 252).length = frameSize (0x02 :: 0x03 :: 0xFF :: bytesOf 252) := by decide +kernel

theorem test_witness_FrameRoundTrip :
    openIdle.link = .opened ∧ openIdle.rxcnt = 0 ∧ openIdle.rxbuf.wf = true ∧
    (1 ≤ (bytesOf 1).length ∧ (bytesOf 1).length ≤ 250) ∧ (1 ≤ (bytesOf 250).length ∧ (bytesOf 250).length ≤ 250) := by
  decide +kernel

/-- V22's kind of stream, cut after its third byte; a Task in flight takes the first frame. -/
theorem test_witness_ConcatenatedFramesAreEmittedInTurn :
    (inFlight taskA).link = .opened ∧ (inFlight taskA).rxcnt = 0 ∧ (inFlight taskA).rxbuf.wf = true ∧
    (1 ≤ (bytesOf 1).length ∧ (bytesOf 250).length ≤ 250) ∧
    [[0x02, 0x03, 0x06], [0x00, 0xC2, 0x82, 0x02, 0x03, 0x07, 0x1C, 0x60, 0x77, 0xE0]].flatten =
      frame (inFlight taskA).cfg [0x00] ++ frame (inFlight taskA).cfg [0x1C, 0x60] ∧
    view State.busy (exec (.rxFrame (frame (inFlight taskA).cfg [0x00])) { inFlight taskA with rxcnt := 0 }) =
      some true := by decide +kernel

theorem test_witness_OpenOpensTheLink : openIdle.link = .opened := rfl

theorem test_witness_CloseFailsEveryTask : State.reset.link = .closed ∧ (inFlight taskA).link = .opened := by
  decide +kernel

theorem test_witness_TransportErrorFailsEveryTask : State.reset.link = .closed ∧ (inFlight pollA).link = .opened := by
  decide +kernel

/-- The four outcomes of SUBMIT. -/
theorem test_witness_SubmitQueuesOrRefuses :
    (bytesOf 0).length < 1 ∧ 250 < (bytesOf 251).length ∧ State.reset.link = .closed ∧
    { queued with cfg := { Config.defaults with queueDepth := some 1 } }.cfg.queueDepth = some 1 ∧ 1 ≤ queued.q.length ∧
    queued.cfg.queueDepth = none := by decide +kernel

/-- No byte, 251 bytes; a full queue of depth one, at both ends of the payload's range; an unbounded queue. -/
theorem test_witness_SubmitRefusalRows :
    (bytesOf 0).length = 0 ∧ 250 < (bytesOf 251).length ∧
    ({ queued with cfg := { Config.defaults with queueDepth := some 1 } }.cfg.queueDepth = some 1 ∧
      1 ≤ queued.q.length ∧ queued.link = .opened ∧ 1 ≤ (bytesOf 1).length ∧ (bytesOf 250).length ≤ 250) ∧
    queued.cfg.queueDepth = none := by decide +kernel

theorem test_witness_ReservedEventsDoNothing : 7 ≤ (7 : BitVec 4).toNat ∧ 7 ≤ (15 : BitVec 4).toNat := by decide +kernel

theorem test_witness_ClosedLinkIsInert : State.reset.link = .closed ∧
    (1 ≤ (bytesOf 1).length ∧ (bytesOf 250).length ≤ 250) := by decide +kernel

theorem test_witness_TickDispatchesTheOldestTask :
    queued.link = .opened ∧ queued.arb = .idle ∧ queued.q = taskA :: [] := by decide +kernel

theorem test_witness_IdleTickSendsOnePoll :
    openIdle.link = .opened ∧ openIdle.arb = .idle ∧ openIdle.q = [] ∧
    1 ≤ openIdle.cfg.pollPayload.length ∧ openIdle.cfg.pollPayload.length ≤ 250 := by decide +kernel

theorem test_witness_TickAccountsOrDispatchesOneTask :
    (1 ≤ openIdle.cfg.pollPayload.length ∧ openIdle.cfg.pollPayload.length ≤ 250) ∧
    State.reset.link = .closed ∧ ((inFlight taskA).link = .opened ∧ (inFlight taskA).arb = .awaitingResponse) ∧
    (openIdle.link = .opened ∧ openIdle.arb = .idle ∧ openIdle.q = []) ∧ queued.q = taskA :: [] := by decide +kernel

/-- Not armed; armed and below, at equality (V80), above (V79). -/
theorem test_witness_TickAccountCountsUpToTheTimeout :
    openIdle.toArmed = false ∧
    ((inFlight taskA).toArmed = true ∧ (inFlight taskA).cur = some taskA ∧
      (inFlight taskA).toAcc + (inFlight taskA).cfg.tickMs < taskA.timeout) ∧
    200 ≤ { inFlight { taskA with timeout := 200 } with toAcc := 100 }.toAcc + (inFlight taskA).cfg.tickMs ∧
    101 ≤ 100 + (inFlight taskA).cfg.tickMs := by decide +kernel

theorem test_witness_PollSynthMakesThePoll :
    1 ≤ openIdle.cfg.pollPayload.length ∧ openIdle.cfg.pollPayload.length ≤ 250 ∧
    { Config.defaults with pollPayload := bytesOf 250 }.pollPayload.length ≤ 250 := by decide +kernel

theorem test_witness_TimeoutEndsTheTask : (inFlight taskA).cur = some taskA := rfl

/-- `T = 1000` at the tenth tick, `T = 1` at the first (V78). -/
theorem test_witness_TimeoutFallsOnTheFirstTickAtOrPastT :
    ((inFlight taskA).link = .opened ∧ (inFlight taskA).arb = .awaitingResponse ∧ (inFlight taskA).cur = some taskA ∧
      (inFlight taskA).toArmed = true ∧ (inFlight taskA).toAcc = 0 ∧ taskA.timeout ≠ 0) ∧
    (9 * (inFlight taskA).cfg.tickMs < taskA.timeout ∧ taskA.timeout ≤ (9 + 1) * (inFlight taskA).cfg.tickMs) ∧
    0 * (inFlight taskA).cfg.tickMs < 1 ∧ 1 ≤ (0 + 1) * (inFlight taskA).cfg.tickMs := by decide +kernel

theorem test_witness_RxFrameRunsTheClassOfTheFrame :
    openIdle.arb = .idle ∧ (inFlight taskA).arb = .awaitingResponse ∧
    crcVerify (inFlight taskA).cfg.poly [0x02, 0x03, 0x06, 0x19, 0x82, 0x0F] = true := by decide +kernel

theorem test_witness_AckMarkerKeepsTheTaskInFlight : (inFlight taskA).arb = .awaitingResponse ∧
    classify (inFlight taskA).cfg.poly [0x02, 0x03, 0x06, 0x00, 0xC2, 0x82] = .ack := by decide +kernel

theorem test_witness_BadFrameIsNakedAndFailsTheTask : (inFlight taskA).cur = some taskA := rfl

theorem test_witness_NakMarkerRejectsTheTask : (inFlight pollA).cur = some pollA := rfl

theorem test_witness_DataFrameIsAckedAndCompletesTheTask : (inFlight pollA).cur = some pollA := rfl

theorem test_witness_TransmittedFramesAreEncoded :
    (1 ≤ (bytesOf 1).length ∧ (bytesOf 1).length ≤ 250) ∧ (1 ≤ (bytesOf 250).length ∧ (bytesOf 250).length ≤ 250) ∧
    (bytesOf 0).length = 0 ∧ 250 < (bytesOf 251).length := by decide +kernel

theorem test_witness_DisarmedTaskWaitsForEver : { inFlight taskA with toArmed := false }.arb = .awaitingResponse ∧
    { inFlight taskA with toArmed := false }.toArmed = false := by decide +kernel

/-- The six clauses in their order. -/
theorem test_witness_StepRunsTheDecodedOperation :
    ({ openIdle with probe := some [0x41] }.probe = some [0x41] ∧ decode [0x41] = .ok (.txAck, [])) ∧
    (ticking.probe = none ∧ ticking.input = [0x05] :: [] ∧ decode [0x05] = .ok (.tick, []) ∧ Instr.tick.isEvent = true) ∧
    (openIdle.probe = none ∧ openIdle.input = []) ∧
    decode [0xEE] = .error (.unknownHead 0xEE) ∧ decode [] = .error .emptyRecord ∧
    (decode [0x41] = .ok (.txAck, []) ∧ Instr.txAck.isEvent = false) :=
  ⟨⟨rfl, rfl⟩, ⟨rfl, rfl, rfl, rfl⟩, ⟨rfl, rfl⟩, rfl, rfl, rfl, rfl⟩

/-- V92: SUBMIT and TICK presented in one cycle. -/
theorem test_witness_CoincidentEventsRunByPriority :
    openIdle.probe = none ∧ openIdle.input = [] ∧
    (∀ i ∈ [Instr.submit 9 [0x33] 0, .tick], i.wellFormed = true ∧ i.isEvent = true) ∧
    serialise [.submit 9 [0x33] 0, .tick] = [.tick, .submit 9 [0x33] 0] := by decide +kernel

/-- A busy state whose history ends in the request frame of the Task in flight, then a refused SUBMIT (R39 item 6). -/
def busyWithHistory : State :=
  { inFlight taskA with out := [.tx .req taskA.frame, .compl 9 (.error .payloadLength)] }

theorem test_busy_inv : BlockInv busyWithHistory where
  busy_iff := by simp [State.busy, busyWithHistory, inFlight]
  armed := fun _ => ⟨taskA, rfl, by decide, by decide⟩
  acc := ⟨0, rfl⟩
  closed := by simp [busyWithHistory, inFlight, openIdle]
  assembler := by decide
  queue := by simp [busyWithHistory, inFlight, openIdle, State.reset]
  inflight := by rintro t ⟨⟩; exact test_queued_frame
  single_flight := by
    rintro t ⟨⟩
    exact ⟨[], [.compl 9 (.error .payloadLength)], rfl, by simp⟩
  sent := by
    intro k f h
    obtain ⟨rfl, rfl⟩ : k = .req ∧ f = taskA.frame := by simpa [busyWithHistory] using h
    exact test_queued_frame
  memory := by decide
  config := by decide
  events := rfl

theorem test_witness_ConfigurationIsFixedAndStreamsOnlyGrow : ∃ s', exec .tick queued = .next s' := ⟨_, rfl⟩

/-- An operation that is no RXBYTE; an RXBYTE on a closed link; one on an open link, and another offset. -/
theorem test_witness_ReceiveBufferIsWrittenOnlyByRxbyte :
    (∃ s', exec .tick queued = .next s') ∧
    ((∃ s', exec (.rxbyte 0x02) State.reset = .next s') ∧ State.reset.link = .closed) ∧
    (∃ s', exec (.rxbyte 0x02) openIdle = .next s') ∧ openIdle.link = .opened ∧ openIdle.rxbuf.wf = true ∧
    1 ≠ openIdle.rxcnt.toNat :=
  ⟨⟨_, rfl⟩, ⟨⟨_, rfl⟩, rfl⟩, ⟨_, rfl⟩, rfl, rfl, by decide +kernel⟩

/-- RESET over a known status; the byte that completes the response to a Poll (program P1). -/
theorem test_witness_LastStatusChangesOnlyByPollOrReset :
    (Instr.reset.isEvent = true ∧
      view State.lastStatus (exec .reset { openIdle with lastStatus := some [0x19] }) = some none) ∧
    (Instr.rxbyte 0x0F).isEvent = true ∧ (fiveBytes (inFlight pollA)).lastStatus = none ∧
    view State.lastStatus (exec (.rxbyte 0x0F) (fiveBytes (inFlight pollA))) = some (some [0x19]) := by decide +kernel

/-- Idle and a tick; busy and CLOSE, the tick that times out, a completed frame. -/
theorem test_witness_ArbiterTransitionsAreTheTable :
    (queued.arb = .idle ∧ view State.arb (exec .tick queued) = some .awaitingResponse) ∧
    (inFlight taskA).arb = .awaitingResponse ∧ view State.arb (exec .closeLink (inFlight taskA)) = some .idle ∧
    view State.arb (exec .tick { inFlight taskA with toAcc := 900 }) = some .idle ∧
    (completedFrame (fiveBytes (inFlight taskA)) 0x0F = some [0x02, 0x03, 0x06, 0x19, 0x82, 0x0F] ∧
      view State.arb (exec (.rxbyte 0x0F) (fiveBytes (inFlight taskA))) = some .idle) := by decide +kernel

/-- A request, an ACK frame, a NAK frame. -/
theorem test_witness_TransmitsInExactlyThreeSituations :
    (Instr.tick.isEvent = true ∧ view (fun s => s.out.length) (exec .tick queued) = some 1) ∧
    (Instr.rxbyte 0x0F).isEvent = true ∧
    classify 0x8408 [0x02, 0x03, 0x06, 0x19, 0x82, 0x0F] = .data [0x19] ∧
    view (fun s => s.out.length) (exec (.rxbyte 0x0F) (fiveBytes (inFlight taskA))) = some 2 ∧
    classify 0x8408 [0x02, 0x03, 0x06, 0x19, 0x82, 0x0E] = .bad ∧
    view (fun s => s.out.length) (exec (.rxbyte 0x0E) (fiveBytes (inFlight taskA))) = some 2 := by decide +kernel

/-- A tick, an accepted SUBMIT, a refused one. -/
theorem test_witness_NoHostTaskIsLostRepeatedOrReordered :
    BlockInv queued ∧ Instr.tick.isEvent = true ∧ Instr.tick ≠ .reset ∧ (∃ s', exec .tick queued = .next s') ∧
    (∃ s', exec (.submit 9 [0x30] 0) queued = .next s') ∧ ∃ s', exec (.submit 9 [] 0) queued = .next s' :=
  ⟨test_queued_inv, rfl, by decide +kernel, ⟨_, rfl⟩, ⟨_, rfl⟩, ⟨_, rfl⟩⟩

/-- A tick that makes no Poll; the tick of an open idle block with an empty queue makes one. -/
theorem test_witness_PollsInFlightPlusStatusRecordsAreConserved :
    BlockInv queued ∧ Instr.tick.isEvent = true ∧ Instr.tick ≠ .reset ∧ (∃ s', exec .tick queued = .next s') ∧
    openIdle.link = .opened ∧ openIdle.arb = .idle ∧ openIdle.q = [] ∧ ∃ s', exec .tick openIdle = .next s' :=
  ⟨test_queued_inv, rfl, by decide +kernel, ⟨_, rfl⟩, rfl, rfl, rfl, ⟨_, rfl⟩⟩

/-- An idle state and a busy one. -/
theorem test_witness_StepKeepsTheInvariant : (BlockInv ticking ∧ ∃ s', step ticking = .next s') ∧
    BlockInv busyWithHistory ∧ ∃ s', step busyWithHistory = .next s' :=
  ⟨⟨test_ticking_inv, ⟨_, rfl⟩⟩, test_busy_inv, ⟨_, rfl⟩⟩

theorem test_witness_EveryEventIsProcessed : BlockInv ticking ∧ (Instr.rxbyte 0x02).isEvent = true :=
  ⟨test_ticking_inv, rfl⟩

end Sys2Proof.Tests
end

/-! The scope of the block (00_scope.md): what a step runs (log entries 1, 2 and 3), and that every input event is
processed from every state that meets the invariant (R12, R14). -/

namespace Sys2Proof.Machine

variable {s : State}

/-! ### What a step runs, one lemma per case of `fetch` -/

theorem step_probe {record r : Bytes} {i : Instr} (hp : s.probe = some record) (hd : decode record = .ok (i, r)) :
    step s = exec i { s with probe := none } := by
  simp only [step, fetch, hp, fetchProbe, hd]

theorem step_probe_undecodable {record : Bytes} {e : DecodeError} (hp : s.probe = some record)
    (hd : decode record = .error e) : step s = .refused (.undecodable e) := by
  simp only [step, fetch, hp, fetchProbe, hd]

theorem step_waiting (hp : s.probe = none) (hin : s.input = []) : step s = .next s := by
  simp only [step, fetch, hp, hin]

theorem step_event {record r : Bytes} {rest : List Bytes} {i : Instr} (hp : s.probe = none)
    (hin : s.input = record :: rest) (hd : decode record = .ok (i, r)) (he : i.isEvent = true) :
    step s = exec i { s with input := rest } := by
  simp only [step, fetch, hp, hin, fetchEvent, hd, he, if_true]

theorem step_event_undecodable {record : Bytes} {rest : List Bytes} {e : DecodeError} (hp : s.probe = none)
    (hin : s.input = record :: rest) (hd : decode record = .error e) : step s = .refused (.undecodable e) := by
  simp only [step, fetch, hp, hin, fetchEvent, hd]

theorem step_notAnEvent {record r : Bytes} {rest : List Bytes} {i : Instr} (hp : s.probe = none)
    (hin : s.input = record :: rest) (hd : decode record = .ok (i, r)) (he : i.isEvent = false) :
    step s = .refused .notAnEvent := by
  simp only [step, fetch, hp, hin, fetchEvent, hd, he, Bool.false_eq_true, if_false]

/-- Settles O49: the six cases of `fetch`. -/
theorem stepRunsTheDecodedOperation : Obligations.StepRunsTheDecodedOperation := fun _ =>
  ⟨fun _ _ _ hp hd => step_probe hp hd,
   fun _ _ _ _ hp hin hd he => step_event hp hin hd he,
   step_waiting,
   fun _ _ hp hd => step_probe_undecodable hp hd,
   fun _ _ _ hp hin hd => step_event_undecodable hp hin hd,
   fun _ _ _ _ hp hin hd he => step_notAnEvent hp hin hd he⟩

/-- With nothing in the probe a step waits, refuses a record by name, or runs an input event. -/
theorem step_cases_of_no_probe (hp : s.probe = none) :
    step s = .next s ∨ (∃ r, step s = .refused r) ∨
    ∃ i rest, i.isEvent = true ∧ step s = exec i { s with input := rest } := by
  cases hin : s.input with
  | nil => exact .inl (step_waiting hp hin)
  | cons record rest =>
    cases hd : decode record with
    | error e => exact .inr (.inl ⟨_, step_event_undecodable hp hin hd⟩)
    | ok x =>
      obtain ⟨i, r⟩ := x
      cases he : i.isEvent with
      | false => exact .inr (.inl ⟨_, step_notAnEvent hp hin hd he⟩)
      | true => exact .inr (.inr ⟨i, rest, he, step_event hp hin hd he⟩)

/-! ### When the operations that end a Task answer

They stop only when no Task is in flight, which item 1 of the invariant excludes while busy and item 2 while armed. -/

theorem BlockInv.cur_of_busy (h : BlockInv s) (hb : s.busy = true) : ∃ t, s.cur = some t :=
  Option.ne_none_iff_exists'.mp (h.busy_iff.mp hb)

theorem timeout_of_cur {t : Task} (ht : s.cur = some t) :
    timeout s = .next (complete t (.error .requestTimeout) (release s)) := endTask_of_cur ht

theorem tickAccount_answers (hcur : s.toArmed = true → ∃ t, s.cur = some t) : ∃ s', tickAccount s = .next s' := by
  unfold tickAccount
  split
  · next ha =>
    obtain ⟨t, ht⟩ := hcur ha
    simp only [ht]
    split
    · exact ⟨_, timeout_of_cur rfl⟩
    · exact ⟨_, rfl⟩
  · exact ⟨s, rfl⟩

theorem rxClass_answers {t : Task} (c : FrameClass) (ht : s.cur = some t) : ∃ s', rxClass c s = .next s' := by
  cases c with
  | bad => exact ⟨_, endTask_of_cur (s := sendFrame .nak nakPayload s) ht⟩
  | ack => exact ⟨s, rfl⟩
  | nak => exact ⟨_, endTask_of_cur ht⟩
  | data p => exact ⟨_, endTask_of_cur (s := sendFrame .ack ackPayload s) ht⟩

theorem rxFrame_answers (f : Bytes) (hcur : s.busy = true → ∃ t, s.cur = some t) : ∃ s', rxFrame f s = .next s' := by
  unfold rxFrame
  split
  · next hb =>
    obtain ⟨t, ht⟩ := hcur hb
    exact rxClass_answers _ (by rw [takeFrame_cur, ht])
  · exact ⟨s, rfl⟩

/-! ### The events that can stop in some state, and do not where the invariant holds -/

theorem execSubmit_answers (tag : Nat) (p : Bytes) (ms : Nat) : ∃ s', execSubmit tag p ms s = .next s' := by
  unfold execSubmit
  split <;> exact ⟨_, rfl⟩

/-- TICK: R39 item 2 for the accounting, the legal `POLL_PAYLOAD` of R7 for the Poll. -/
theorem execTick_answers (h : BlockInv s) : ∃ s', execTick s = .next s' := by
  obtain ⟨-, hpoll, -⟩ := h.config
  unfold execTick
  split
  · split
    · exact tickAccount_answers fun ha => (h.armed ha).imp fun _ => And.left
    · split
      · exact ⟨_, if_pos hpoll⟩
      · exact ⟨_, rfl⟩
  · exact ⟨s, rfl⟩

/-- RXBYTE: `RXBUF` has room for the byte (R22), and a completed frame taken while busy finds its Task (R39 item 1). -/
theorem execRxbyte_answers (b : Byte) (h : BlockInv s) : ∃ s', execRxbyte b s = .next s' := by
  have hroom : s.rxcnt.toNat < 255 := Nat.lt_succ_of_le h.assembler.2
  unfold execRxbyte
  split
  · simp only [pushByte_eq b hroom]
    split
    · rw [decEmit_eq]
      exact rxFrame_answers _ h.cur_of_busy
    · exact ⟨_, rfl⟩
  · exact ⟨s, rfl⟩

/-- Every input event is processed to a next state (R12, R14). -/
theorem exec_event_answers (h : BlockInv s) {i : Instr} (he : i.isEvent = true) : ∃ s', exec i s = .next s' := by
  cases i <;> simp only [Instr.isEvent, Bool.false_eq_true] at he
  case reset | openLink | closeLink | terr | evReserved => exact ⟨_, rfl⟩
  case submit tag p ms => exact execSubmit_answers tag p ms
  case tick => exact execTick_answers h
  case rxbyte b => exact execRxbyte_answers b h

/-- Running an event after its record was taken away answers as well, since no event reads `input`. -/
theorem exec_event_with_input_answers (h : BlockInv s) {i : Instr} (he : i.isEvent = true) (rest : List Bytes) :
    ∃ s', exec i { s with input := rest } = .next s' := by
  obtain ⟨s', hs'⟩ := exec_event_answers h he
  rw [exec_with_input s rest i he, hs']
  exact ⟨_, rfl⟩

theorem step_ne_fault (h : BlockInv s) (r : Fault) : step s ≠ .fault r := by
  obtain hs | ⟨_, hs⟩ | ⟨i, rest, he, hs⟩ := step_cases_of_no_probe h.events
  · simp [hs]
  · simp [hs]
  · obtain ⟨s', hs'⟩ := exec_event_with_input_answers h he rest
    simp [hs, hs']

/-- Settles O60: each event answers where the invariant holds, and a step runs nothing but events. -/
theorem everyEventIsProcessed : Obligations.EveryEventIsProcessed := fun _ h =>
  ⟨fun _ he => exec_event_answers h he, step_ne_fault h⟩

end Sys2Proof.Machine

/-! What every operation keeps of the state (10_state.md): the invariant of R39 after reset and after every step, the
configuration and the streams (R34 to R37), the bytes of `RXBUF` (R21) and `LASTSTATUS` (R33). -/

namespace Sys2Proof.Machine

variable {s s' : State}

/-! ### The invariant under each update of the state

One rule per update. A sink is invoked and a frame is sent only with no Task in flight: the meanings release the Task
before its record, and `release_sendFrame` moves the release before the ACK or NAK frame. -/

theorem BlockInv.with_input (h : BlockInv s) (rest : List Bytes) : BlockInv { s with input := rest } := { h with }

theorem BlockInv.with_lastStatus (h : BlockInv s) (last : Option Bytes) : BlockInv { s with lastStatus := last } :=
  { h with }

theorem BlockInv.after_useCrc (h : BlockInv s) : BlockInv (useCrc s) := { h with }

theorem BlockInv.after_release (h : BlockInv s) : BlockInv (release s) :=
  { h with
    busy_iff := by simp [State.busy]
    armed := by simp
    closed := fun hl => by
      obtain ⟨-, hq, hcnt, -⟩ := h.closed hl
      exact ⟨rfl, hq, hcnt, rfl⟩
    inflight := by simp
    single_flight := by simp }

/-- An output that is not a frame, or is one the encoder made, with no Task in flight. -/
theorem BlockInv.after_emit (h : BlockInv s) (hcur : s.cur = none) {o : Output}
    (ho : ∀ k f, o = .tx k f → encoded s.cfg f) : BlockInv (emit o s) :=
  { h with
    single_flight := by simp [hcur]
    sent := fun k f hm => by
      rw [emit_out, List.mem_append, List.mem_singleton] at hm
      exact hm.elim (h.sent k f) fun he => ho k f he.symm }

theorem BlockInv.after_sendFrame (h : BlockInv s) (hcur : s.cur = none) (k : TxKind) {p : Bytes} (hp : inDomain p) :
    BlockInv (sendFrame k p s) :=
  h.after_useCrc.after_emit hcur fun _ _ he => ⟨p, hp, (Output.tx.inj he).2.symm⟩

theorem BlockInv.after_complete (h : BlockInv s) (hcur : s.cur = none) (t : Task) (v : Verdict) :
    BlockInv (complete t v s) := by
  rw [complete_eq]
  exact (h.after_emit hcur fun k f he => absurd he (sinkRecord_ne_tx _ t v k f)).with_lastStatus _

theorem release_sendFrame (k : TxKind) (p : Bytes) (s : State) :
    release (sendFrame k p s) = sendFrame k p (release s) := rfl

/-- Writing `TO_ACC` (R29): a multiple of `TICK_MS`, below the timeout while armed. -/
theorem BlockInv.with_toAcc (h : BlockInv s) {n : Nat} (hn : s.cfg.tickMs ∣ n)
    (harm : s.toArmed = true → ∀ t, s.cur = some t → n < t.timeout) : BlockInv { s with toAcc := n } :=
  { h with
    armed := fun ha => by
      obtain ⟨t, ht, h0, -⟩ := h.armed ha
      exact ⟨t, ht, h0, harm ha t ht⟩
    acc := hn }

theorem BlockInv.after_takeFrame (h : BlockInv s) (f : Bytes) : BlockInv (takeFrame f s) := by
  have hd : BlockInv { s with toArmed := false } :=
    { h with
      armed := by simp
      closed := fun hl => by
        obtain ⟨hb, hq, hcnt, -⟩ := h.closed hl
        exact ⟨hb, hq, hcnt, rfl⟩ }
  unfold takeFrame
  dsimp only
  split
  · exact hd
  · exact hd.after_useCrc

/-- A new partial frame in the assembler of an open link. -/
theorem BlockInv.with_assembler (h : BlockInv s) (hl : s.link = .opened) {m : Memory} {n : BitVec 8}
    (hm : m.wf = true) (hn : n.toNat ≤ 254) (hpart : ¬ (3 ≤ n.toNat ∧ (m.byte 2).toNat ≤ n.toNat)) :
    BlockInv { s with rxbuf := m, rxcnt := n } :=
  { h with
    closed := fun hc => by simp [hl] at hc
    assembler := ⟨by rw [← Bool.not_eq_true, frameComplete_iff]; exact hpart, hn⟩
    memory := hm }

theorem BlockInv.after_disconnect (h : BlockInv s) : BlockInv (disconnect s) :=
  { h with
    busy_iff := by simp [State.busy]
    armed := by simp
    acc := by simp
    closed := fun _ => ⟨rfl, rfl, rfl, rfl⟩
    assembler := ⟨by rw [← Bool.not_eq_true, frameComplete_iff]; simp, by simp⟩
    queue := by simp
    inflight := by simp
    single_flight := by simp }

theorem BlockInv.after_failAll (h : BlockInv s) (hcur : s.cur = none) (ts : List Task) : BlockInv (failAll ts s) := by
  induction ts generalizing s with
  | nil => exact h
  | cons t ts ih => exact ih (h.after_complete hcur t _) (by rw [complete_cur, hcur])

theorem BlockInv.after_tearDown (h : BlockInv s) (e : LinkError) : BlockInv (tearDown e s) := by
  unfold tearDown
  split
  · cases s.cur with
    | none => exact h.after_disconnect.after_failAll rfl s.q
    | some t => exact (h.after_disconnect.after_complete rfl t _).after_failAll (complete_cur _ t _) s.q
  · exact h

theorem BlockInv.with_q (h : BlockInv s) (hl : s.link = .opened) {q : List Task}
    (hq : ∀ t ∈ q, (∃ tag, t.kind = .host tag) ∧ encoded s.cfg t.frame) : BlockInv { s with q := q } :=
  { h with
    closed := fun hc => by simp [hl] at hc
    queue := hq }

/-- A dispatched Task's request frame ends the history, and its timeout starts at 0 (R148). -/
theorem BlockInv.after_dispatch (h : BlockInv s) (hl : s.link = .opened) {t : Task} (ht : encoded s.cfg t.frame) :
    BlockInv (dispatch t s) :=
  { h with
    busy_iff := by simp [State.busy]
    armed := fun ha => by
      have h0 : t.timeout ≠ 0 := by simpa using ha
      exact ⟨t, rfl, h0, Nat.pos_of_ne_zero h0⟩
    acc := by simp
    closed := fun hc => by simp [hl] at hc
    inflight := by simpa using ht
    single_flight := by
      rintro _ ⟨⟩
      exact ⟨s.out, [], rfl, by simp⟩
    sent := fun k f hm => by
      rw [dispatch_out, List.mem_append, List.mem_singleton] at hm
      exact hm.elim (h.sent k f) fun he => (Output.tx.inj he).2 ▸ ht }

/-- A refusal of SUBMIT, which may stand after the request frame of the Task in flight; on a closed link there is no
Task in flight. -/
theorem BlockInv.after_refuseSubmit (h : BlockInv s) (tag : Nat) {e : LinkError}
    (he : e = .payloadLength ∨ e = .queueFull ∨ s.cur = none) : BlockInv (refuseSubmit tag e s) :=
  { h with
    single_flight := fun t ht => by
      obtain ⟨before, since, hout, hsince⟩ := h.single_flight t ht
      refine ⟨before, since ++ [.compl tag (.error e)], by simp [hout], fun o ho => ?_⟩
      rw [List.mem_append, List.mem_singleton] at ho
      obtain ho | rfl := ho
      · exact hsince o ho
      · obtain rfl | rfl | hnone := he
        · exact ⟨tag, .inl rfl⟩
        · exact ⟨tag, .inr rfl⟩
        · exact absurd (hnone.symm.trans ht) (by simp)
    sent := fun k f hm => h.sent k f (by simpa using hm) }

/-! ### The invariant under each event -/

theorem BlockInv.cur_of_closed (h : BlockInv s) (hl : s.link = .closed) : s.cur = none := by
  obtain ⟨hb, -⟩ := h.closed hl
  by_contra hc
  exact absurd (h.busy_iff.mpr hc) (by simp [hb])

theorem execSubmit_keeps_blockInv {tag : Nat} {p : Bytes} {ms : Nat} (h : BlockInv s)
    (hs : execSubmit tag p ms s = .next s') : BlockInv s' := by
  unfold execSubmit at hs
  obtain ⟨-, hr⟩ | ⟨-, hl, hr⟩ | ⟨-, -, -, hr⟩ | ⟨hp, hl, -, hr⟩ := submitRefusal_cases s p <;>
    rw [hr] at hs <;> cases hs
  · exact h.after_refuseSubmit tag (.inl rfl)
  · exact h.after_refuseSubmit tag (.inr (.inr (h.cur_of_closed hl)))
  · exact h.after_refuseSubmit tag (.inr (.inl rfl))
  · refine (h.with_q hl fun t ht => ?_).after_useCrc
    rw [List.mem_append, List.mem_singleton] at ht
    obtain ht | rfl := ht
    · exact h.queue t ht
    · exact ⟨⟨tag, rfl⟩, p, hp, rfl⟩

theorem tickAccount_keeps_blockInv (h : BlockInv s) (hs : tickAccount s = .next s') : BlockInv s' := by
  have hacc : s.cfg.tickMs ∣ s.toAcc + s.cfg.tickMs := h.acc.add (dvd_refl _)
  obtain ⟨-, rfl⟩ | ⟨t, -, hcur, ⟨hlt, rfl⟩ | ⟨-, rfl⟩⟩ := tickAccount_cases hs
  · exact h
  · refine h.with_toAcc hacc fun _ t' ht' => ?_
    obtain rfl : t = t' := Option.some.inj (hcur.symm.trans ht')
    exact hlt
  · exact (h.after_release.with_toAcc hacc (by simp)).after_complete rfl t _

theorem execTick_keeps_blockInv (h : BlockInv s) (hs : execTick s = .next s') : BlockInv s' := by
  obtain ⟨-, rfl⟩ | ⟨-, -, hs⟩ | ⟨t, q, hl, -, hq, rfl⟩ | ⟨hl, -, -, hp, rfl⟩ := execTick_cases hs
  · exact h
  · exact tickAccount_keeps_blockInv h hs
  · have hqueue := h.queue
    rw [hq, List.forall_mem_cons] at hqueue
    obtain ⟨⟨-, ht⟩, hrest⟩ := hqueue
    exact (h.with_q hl hrest).after_dispatch hl ht
  · exact h.after_useCrc.after_dispatch hl ⟨_, hp, rfl⟩

theorem rxFrame_keeps_blockInv {f : Bytes} (h : BlockInv s) (hs : rxFrame f s = .next s') : BlockInv s' := by
  have hf := h.after_takeFrame f
  obtain ⟨-, rfl⟩ | ⟨-, -, rfl⟩ | ⟨t, -, -, ⟨-, rfl⟩ | ⟨-, rfl⟩ | ⟨p, -, rfl⟩⟩ := rxFrame_cases hs
  · exact h
  · exact hf
  · rw [release_sendFrame]
    exact (hf.after_release.after_sendFrame rfl .nak (by decide)).after_complete rfl t _
  · exact hf.after_release.after_complete rfl t _
  · rw [release_sendFrame]
    exact (hf.after_release.after_sendFrame rfl .ack (by decide)).after_complete rfl t _

/-- A byte that completes no frame leaves at most 254 bytes: with 255 of them the third byte, whatever it is, says
that the frame is complete (R22). -/
theorem not_complete_of_completedFrame_none {b : Byte} (hl : s.link = .opened) (hc : completedFrame s b = none) :
    ¬ (3 ≤ s.rxcnt.toNat + 1 ∧ ((bufferAfter s b).byte 2).toNat ≤ s.rxcnt.toNat + 1) ∧ s.rxcnt.toNat + 1 ≤ 254 := by
  have hpart : ¬ (3 ≤ s.rxcnt.toNat + 1 ∧ ((bufferAfter s b).byte 2).toNat ≤ s.rxcnt.toNat + 1) := by
    simpa [completedFrame, hl] using hc
  have := ((bufferAfter s b).byte 2).isLt
  exact ⟨hpart, by omega⟩

theorem execRxbyte_keeps_blockInv {b : Byte} (h : BlockInv s) (hs : execRxbyte b s = .next s') : BlockInv s' := by
  have hwf (hr : s.rxcnt.toNat < 255) : (bufferAfter s b).wf = true := Memory.set_wf h.memory hr
  obtain ⟨-, rfl⟩ | ⟨hl, hr, hc, rfl⟩ | ⟨f, hl, hr, -, hs⟩ := execRxbyte_cases hs
  · exact h
  · obtain ⟨hpart, hn⟩ := not_complete_of_completedFrame_none hl hc
    rw [← rxcnt_succ hr] at hpart hn
    exact h.with_assembler hl (hwf hr) hn hpart
  · exact rxFrame_keeps_blockInv (h.with_assembler hl (hwf hr) (by simp) (by simp)) hs

theorem exec_event_keeps_blockInv {i : Instr} (h : BlockInv s) (he : i.isEvent = true)
    (hs : exec i s = .next s') : BlockInv s' := by
  cases i <;> simp only [Instr.isEvent, Bool.false_eq_true] at he
  case reset => cases hs; exact (h.after_disconnect.with_lastStatus none).after_useCrc
  case openLink => cases hs; exact { h with closed := by simp }
  case closeLink => cases hs; exact h.after_tearDown _
  case terr => cases hs; exact h.after_tearDown _
  case submit tag p ms => exact execSubmit_keeps_blockInv h hs
  case tick => exact execTick_keeps_blockInv h hs
  case rxbyte b => exact execRxbyte_keeps_blockInv h hs
  case evReserved ev => cases hs; exact h

/-- Settles O59: a step waits or runs one event, and every event keeps the invariant. -/
theorem stepKeepsTheInvariant : Obligations.StepKeepsTheInvariant := fun s s' h hs => by
  obtain hw | ⟨r, hw⟩ | ⟨i, rest, he, hw⟩ := step_cases_of_no_probe h.events <;> rw [hw] at hs
  · cases hs; exact h
  · cases hs
  · exact exec_event_keeps_blockInv (h.with_input rest) he hs

/-- Settles O58: the link is closed, no Task is in flight and the assembler is empty. -/
theorem invariantAtReset : Obligations.InvariantAtReset where
  busy_iff := by decide
  armed := by simp [State.reset]
  acc := Nat.dvd_zero _
  closed := fun _ => ⟨rfl, rfl, rfl, rfl⟩
  assembler := by decide
  queue := by simp [State.reset]
  inflight := by simp [State.reset]
  single_flight := by simp [State.reset]
  sent := by simp [State.reset]
  memory := rfl
  config := ⟨by decide, by decide, by simp [State.reset, Config.defaults]⟩
  events := rfl

/-- Settles O25: the values of `State.reset`, field by field. -/
theorem resetStateValues : Obligations.ResetStateValues :=
  ⟨rfl, rfl, rfl, rfl, rfl, rfl, rfl, rfl, rfl, rfl, rfl, rfl⟩

/-! ### What no operation but RXBYTE writes -/

/-- From `s` to `s'` the configuration, the model's input and probe and `RXBUF` are kept, and the history only grows. -/
structure OnlyAppends (s s' : State) : Prop where
  cfg : s'.cfg = s.cfg
  input : s'.input = s.input
  probe : s'.probe = s.probe
  rxbuf : s'.rxbuf = s.rxbuf
  out : ∃ new, s'.out = s.out ++ new

theorem OnlyAppends.refl (s : State) : OnlyAppends s s := ⟨rfl, rfl, rfl, rfl, [], by simp⟩

theorem OnlyAppends.trans {u : State} (h : OnlyAppends s u) (h' : OnlyAppends u s') : OnlyAppends s s' := by
  obtain ⟨a, ha⟩ := h.out
  obtain ⟨b, hb⟩ := h'.out
  exact ⟨h'.cfg.trans h.cfg, h'.input.trans h.input, h'.probe.trans h.probe, h'.rxbuf.trans h.rxbuf, a ++ b,
    by rw [hb, ha, List.append_assoc]⟩

theorem onlyAppends_emit (o : Output) (s : State) : OnlyAppends s (emit o s) := ⟨rfl, rfl, rfl, rfl, [o], rfl⟩

theorem onlyAppends_sendFrame (k : TxKind) (p : Bytes) (s : State) : OnlyAppends s (sendFrame k p s) :=
  ⟨rfl, rfl, rfl, rfl, _, rfl⟩

theorem onlyAppends_dispatch (t : Task) (s : State) : OnlyAppends s (dispatch t s) := ⟨rfl, rfl, rfl, rfl, _, rfl⟩

theorem onlyAppends_complete (t : Task) (v : Verdict) (s : State) : OnlyAppends s (complete t v s) := by
  rw [complete_eq]
  exact ⟨rfl, rfl, rfl, rfl, _, rfl⟩

theorem onlyAppends_release (s : State) : OnlyAppends s (release s) := { OnlyAppends.refl s with }

theorem onlyAppends_clearAssembler (s : State) : OnlyAppends s (clearAssembler s) := { OnlyAppends.refl s with }

theorem onlyAppends_takeFrame (f : Bytes) (s : State) : OnlyAppends s (takeFrame f s) :=
  ⟨by simp, by simp, by simp, by simp, [], by simp⟩

theorem onlyAppends_tearDown (e : LinkError) (s : State) : OnlyAppends s (tearDown e s) := by
  cases hl : s.link with
  | closed => rw [tearDown_closed e hl]; exact .refl s
  | opened => rw [tearDown_opened e hl]; exact ⟨rfl, rfl, rfl, rfl, _, List.append_assoc _ _ _⟩

theorem endTask_onlyAppends {v : Verdict} (hs : endTask v s = .next s') : OnlyAppends s s' := by
  obtain ⟨t, -, rfl⟩ := endTask_next.mp hs
  exact (onlyAppends_release s).trans (onlyAppends_complete t v _)

theorem rxClass_onlyAppends {c : FrameClass} (hs : rxClass c s = .next s') : OnlyAppends s s' := by
  cases c with
  | bad => exact (onlyAppends_sendFrame .nak _ s).trans (endTask_onlyAppends hs)
  | ack => cases hs; exact .refl s
  | nak => exact endTask_onlyAppends hs
  | data p => exact (onlyAppends_sendFrame .ack _ s).trans (endTask_onlyAppends hs)

theorem rxFrame_onlyAppends {f : Bytes} (hs : rxFrame f s = .next s') : OnlyAppends s s' := by
  unfold rxFrame at hs
  split at hs
  · exact (onlyAppends_takeFrame f s).trans (rxClass_onlyAppends hs)
  · cases hs; exact .refl s

theorem decEmit_onlyAppends (hs : decEmit s = .next s') : OnlyAppends s s' := by
  rw [decEmit_eq] at hs
  exact (onlyAppends_clearAssembler s).trans (rxFrame_onlyAppends hs)

theorem tickAccount_onlyAppends (hs : tickAccount s = .next s') : OnlyAppends s s' := by
  obtain ⟨-, rfl⟩ | ⟨t, -, -, ⟨-, rfl⟩ | ⟨-, rfl⟩⟩ := tickAccount_cases hs
  · exact .refl s'
  · exact { OnlyAppends.refl s with }
  · refine .trans ?_ (onlyAppends_complete t _ _)
    exact { OnlyAppends.refl s with }

theorem execTick_onlyAppends (hs : execTick s = .next s') : OnlyAppends s s' := by
  obtain ⟨-, rfl⟩ | ⟨-, -, hs⟩ | ⟨t, q, -, -, -, rfl⟩ | ⟨-, -, -, -, rfl⟩ := execTick_cases hs
  · exact .refl s'
  · exact tickAccount_onlyAppends hs
  · exact { onlyAppends_dispatch t s with }
  · exact { onlyAppends_dispatch (pollTask s.cfg) s with }

theorem execSubmit_onlyAppends {tag : Nat} {p : Bytes} {ms : Nat} (hs : execSubmit tag p ms s = .next s') :
    OnlyAppends s s' := by
  unfold execSubmit at hs
  split at hs <;> cases hs
  · exact onlyAppends_emit _ s
  · exact { OnlyAppends.refl s with }

/-- RXBYTE on an open link stores its byte and then only appends. -/
theorem execRxbyte_stores {b : Byte} (hs : execRxbyte b s = .next s') :
    (s.link = .closed ∧ s' = s) ∨
    (s.link = .opened ∧ OnlyAppends { s with rxbuf := bufferAfter s b } s') := by
  obtain ⟨hl, rfl⟩ | ⟨hl, -, -, rfl⟩ | ⟨f, hl, -, -, hs⟩ := execRxbyte_cases hs
  · exact .inl ⟨hl, rfl⟩
  · exact .inr ⟨hl, { OnlyAppends.refl { s with rxbuf := bufferAfter s b } with }⟩
  · exact .inr ⟨hl, { rxFrame_onlyAppends hs with }⟩

/-- An operation that stops unless a condition holds. -/
theorem eq_of_guarded_next {c : Prop} [Decidable c] {u : State} {r : Fault}
    (hs : (if c then .next u else .fault r : Result) = .next s') : s' = u := by
  split at hs <;> cases hs
  rfl

/-- Every operation but RXBYTE only appends. -/
theorem exec_onlyAppends {i : Instr} (hi : ∀ b, i ≠ .rxbyte b) (hs : exec i s = .next s') : OnlyAppends s s' := by
  cases i
  case rxbyte b => exact absurd rfl (hi b)
  case closeLink | terr => cases hs; exact onlyAppends_tearDown _ s
  case submit tag p ms => exact execSubmit_onlyAppends hs
  case tick => exact execTick_onlyAppends hs
  case submitPayloadLength | submitQueueFull =>
    obtain rfl := eq_of_guarded_next hs
    exact onlyAppends_emit _ s
  case tickAccount => exact tickAccount_onlyAppends hs
  case dispatch t => cases hs; exact onlyAppends_dispatch t s
  case timeout => exact endTask_onlyAppends hs
  case rxFrame f => exact rxFrame_onlyAppends hs
  case complete t v => cases hs; exact onlyAppends_complete t v s
  case rxBad => exact rxClass_onlyAppends (c := .bad) hs
  case rxAck => exact rxClass_onlyAppends (c := .ack) hs
  case rxNak => exact rxClass_onlyAppends (c := .nak) hs
  case rxData p => exact rxClass_onlyAppends (c := .data p) hs
  case txReq p =>
    obtain rfl := eq_of_guarded_next hs
    exact onlyAppends_sendFrame .req p s
  case txAck | txNak => cases hs; exact onlyAppends_sendFrame _ _ s
  case decEmit => exact decEmit_onlyAppends hs
  case pollSynth | encFrame | decPayload | crcVerify =>
    obtain rfl := eq_of_guarded_next hs
    exact { OnlyAppends.refl s with }
  case reset | openLink | evReserved | rxIdle | decClear | crcInit | crcBit | crcByte | crcGen | crcAppend =>
    cases hs
    exact { OnlyAppends.refl s with }

/-- What every operation keeps, RXBYTE included: the buffer it starts from may be another one. -/
theorem exec_onlyAppends_from {i : Instr} (hs : exec i s = .next s') :
    ∃ m, OnlyAppends { s with rxbuf := m } s' := by
  by_cases hi : ∃ b, i = .rxbyte b
  · obtain ⟨b, rfl⟩ := hi
    obtain ⟨-, rfl⟩ | ⟨-, h⟩ := execRxbyte_stores hs
    · exact ⟨s'.rxbuf, .refl s'⟩
    · exact ⟨_, h⟩
  · exact ⟨s.rxbuf, exec_onlyAppends (not_exists.mp hi) hs⟩

/-- Settles O51: the history only grows, so each stream, a projection of it, does. -/
theorem configurationIsFixedAndStreamsOnlyGrow : Obligations.ConfigurationIsFixedAndStreamsOnlyGrow :=
  fun i s s' hs => by
    obtain ⟨m, hcfg, hinput, hprobe, -, new, hout⟩ := exec_onlyAppends_from hs
    refine ⟨hcfg, hinput, hprobe, ⟨new, hout⟩, ⟨txBytes new, ?_⟩, ⟨complRecords new, ?_⟩, statusRecords new, ?_⟩
    · simp [State.tx, hout]
    · simp [State.compl, hout]
    · simp [State.status, hout]

/-- Settles O52: RXBYTE stores at `RXCNT`, and everything else keeps the buffer. -/
theorem receiveBufferIsWrittenOnlyByRxbyte : Obligations.ReceiveBufferIsWrittenOnlyByRxbyte := by
  refine fun i s s' hs => ⟨fun hi => (exec_onlyAppends hi hs).rxbuf, ?_⟩
  rintro b rfl
  obtain ⟨hl, rfl⟩ | ⟨hl, h⟩ := execRxbyte_stores hs
  · exact ⟨fun _ => rfl, by simp [hl], fun _ _ => rfl⟩
  · have hbuf : s'.rxbuf = s.rxbuf.set s.rxcnt.toNat b := h.rxbuf
    rw [hbuf]
    exact ⟨by simp [hl], fun _ hwf => Memory.byte_set_same hwf, fun a ha => Memory.byte_set_other b _ ha.symm⟩

/-! ### `LASTSTATUS` -/

theorem tearDown_lastStatus (e : LinkError) (s : State) : (tearDown e s).lastStatus = s.lastStatus := by
  cases hl : s.link with
  | closed => rw [tearDown_closed e hl]
  | opened => rw [tearDown_opened e hl, disconnect_lastStatus]

theorem execSubmit_lastStatus {tag : Nat} {p : Bytes} {ms : Nat} (hs : execSubmit tag p ms s = .next s') :
    s'.lastStatus = s.lastStatus := by
  unfold execSubmit at hs
  split at hs <;> cases hs <;> rfl

theorem execTick_lastStatus (hs : execTick s = .next s') : s'.lastStatus = s.lastStatus := by
  obtain ⟨-, rfl⟩ | ⟨-, -, hs⟩ | ⟨t, q, -, -, -, rfl⟩ | ⟨-, -, -, -, rfl⟩ := execTick_cases hs
  · rfl
  · obtain ⟨-, rfl⟩ | ⟨t, -, -, ⟨-, rfl⟩ | ⟨-, rfl⟩⟩ := tickAccount_cases hs
    · rfl
    · rfl
    · rw [complete_error, release_lastStatus]
  · rfl
  · rfl

/-- A Task that succeeds writes `LASTSTATUS` only when it is a Poll (R157). -/
theorem statusAfter_ok (last : Option Bytes) (t : Task) (p : Bytes) :
    statusAfter last t (.ok p) = last ∨ (t.kind = .poll ∧ statusAfter last t (.ok p) = some p) := by
  obtain ⟨k, f, ms⟩ := t
  cases k with
  | host tag => exact .inl rfl
  | poll => exact .inr ⟨rfl, rfl⟩

/-- A frame changes `LASTSTATUS` only when it is a data frame for an in-flight Poll. -/
theorem rxFrame_lastStatus {f : Bytes} (hs : rxFrame f s = .next s') :
    s'.lastStatus = s.lastStatus ∨
    ∃ p t, s.busy = true ∧ classify s.cfg.poly f = .data p ∧ s.cur = some t ∧ t.kind = .poll ∧
      s'.lastStatus = some p := by
  obtain ⟨-, rfl⟩ | ⟨-, -, rfl⟩ | ⟨t, ha, hcur, ⟨-, rfl⟩ | ⟨-, rfl⟩ | ⟨p, hc, rfl⟩⟩ := rxFrame_cases hs
  · exact .inl rfl
  · exact .inl (takeFrame_lastStatus s f)
  · exact .inl (by simp [complete_error])
  · exact .inl (by simp [complete_error])
  · rw [complete_eq]
    simp only [release_lastStatus, sendFrame_lastStatus, takeFrame_lastStatus]
    exact (statusAfter_ok s.lastStatus t p).imp_right fun ⟨hk, hp⟩ => ⟨p, t, busy_iff.mpr ha, hc, hcur, hk, hp⟩

/-- An RXBYTE changes `LASTSTATUS` only when it completes such a frame. -/
theorem execRxbyte_lastStatus {b : Byte} (hs : execRxbyte b s = .next s') :
    s'.lastStatus = s.lastStatus ∨
    ∃ f p t, s.busy = true ∧ completedFrame s b = some f ∧ classify s.cfg.poly f = .data p ∧ s.cur = some t ∧
      t.kind = .poll ∧ s'.lastStatus = some p := by
  obtain ⟨-, rfl⟩ | ⟨-, -, -, rfl⟩ | ⟨f, -, -, hf, hs⟩ := execRxbyte_cases hs
  · exact .inl rfl
  · exact .inl rfl
  · exact (rxFrame_lastStatus hs).imp_right fun ⟨p, t, hb, hc, hcur, hk, hp⟩ => ⟨f, p, t, hb, hf, hc, hcur, hk, hp⟩

/-- Settles O53: every event but RESET and such an RXBYTE keeps `LASTSTATUS`. -/
theorem lastStatusChangesOnlyByPollOrReset : Obligations.LastStatusChangesOnlyByPollOrReset :=
  fun i s s' he hs hne => by
    cases i <;> simp only [Instr.isEvent, Bool.false_eq_true] at he
    case reset => cases hs; exact .inl ⟨rfl, rfl⟩
    case openLink | evReserved => cases hs; exact absurd rfl hne
    case closeLink | terr => cases hs; exact absurd (tearDown_lastStatus _ s) hne
    case submit tag p ms => exact absurd (execSubmit_lastStatus hs) hne
    case tick => exact absurd (execTick_lastStatus hs) hne
    case rxbyte b =>
      obtain ⟨f, p, t, hb, hf, hc, hcur, hk, hp⟩ := (execRxbyte_lastStatus hs).resolve_left hne
      exact .inr ⟨b, f, p, t, rfl, hb, hf, hc, hcur, hk, hp⟩

end Sys2Proof.Machine

/-! What a frame and an event do beyond the state (20_memory.md): every frame handed over is consumed (R58, R152), and
an event transmits in three situations only (R69). -/

namespace Sys2Proof.Machine

variable {s s' : State}

/-! ### Frames are consumed -/

theorem rxFrame_of_idle (f : Bytes) (ha : s.arb = .idle) : rxFrame f s = .next s := by
  simp [rxFrame, not_busy_iff.mpr ha]

theorem rxFrame_rxcnt {f : Bytes} (hs : rxFrame f s = .next s') : s'.rxcnt = s.rxcnt := by
  obtain ⟨-, rfl⟩ | ⟨-, -, rfl⟩ | ⟨t, -, -, ⟨-, rfl⟩ | ⟨-, rfl⟩ | ⟨p, -, rfl⟩⟩ := rxFrame_cases hs
  · rfl
  all_goals simp

/-- Settles O20: DEC.EMIT is RXFRAME with the assembler emptied, and RXFRAME stops only when it finds no Task. -/
theorem framesAreAlwaysConsumed : Obligations.FramesAreAlwaysConsumed := fun s f => by
  simp only [exec, execRxFrame, execDecEmit, decEmit_eq]
  refine ⟨fun ha => ⟨rxFrame_of_idle f ha, rxFrame_of_idle _ ha⟩, fun hcur => ?_⟩
  have hcur := Option.ne_none_iff_exists'.mp hcur
  obtain ⟨t, ht⟩ := rxFrame_answers f fun _ => hcur
  obtain ⟨t', ht'⟩ := rxFrame_answers (s := clearAssembler s) (s.rxbuf.bytes 0 s.rxcnt.toNat) fun _ => hcur
  exact ⟨t, t', ht, ht', rxFrame_rxcnt ht'⟩

/-! ### The kinds of the transmitted frames in a piece of the history -/

/-- The kinds of the frames transmitted in a piece of the history, in order. -/
def txKinds (out : List Output) : List TxKind :=
  out.filterMap fun
    | .tx k _ => some k
    | .compl _ _ => none
    | .status _ _ => none
    | .pollError _ => none

@[simp] theorem txKinds_nil : txKinds [] = [] := rfl

@[simp] theorem txKinds_append (a b : List Output) : txKinds (a ++ b) = txKinds a ++ txKinds b :=
  List.filterMap_append

@[simp] theorem txKinds_tx (k : TxKind) (f : Bytes) (o : List Output) : txKinds (.tx k f :: o) = k :: txKinds o := rfl

@[simp] theorem txKinds_compl (tag : Nat) (v : Verdict) (o : List Output) :
    txKinds (.compl tag v :: o) = txKinds o := rfl

@[simp] theorem txKinds_status (c : Bytes) (b : Bool) (o : List Output) :
    txKinds (.status c b :: o) = txKinds o := rfl

@[simp] theorem txKinds_pollError (e : LinkError) (o : List Output) : txKinds (.pollError e :: o) = txKinds o := rfl

@[simp] theorem txKinds_sinkRecord (last : Option Bytes) (t : Task) (v : Verdict) :
    txKinds [sinkRecord last t v] = [] := by
  obtain ⟨k, f, ms⟩ := t; cases k <;> cases v <;> rfl

@[simp] theorem txKinds_failures (e : LinkError) (ts : List Task) : txKinds (ts.map (failureRecord e)) = [] := by
  refine List.filterMap_eq_nil_iff.mpr fun o ho => ?_
  obtain ⟨⟨k, f, ms⟩, -, rfl⟩ := List.mem_map.mp ho
  cases k <;> rfl

theorem mem_txKinds {k : TxKind} {out : List Output} : k ∈ txKinds out ↔ ∃ f, Output.tx k f ∈ out := by
  induction out with
  | nil => simp
  | cons o out ih => cases o <;> simp [ih, exists_or, eq_comm]

theorem length_filter_isTx (out : List Output) : (out.filter Output.isTx).length = (txKinds out).length := by
  induction out with
  | nil => rfl
  | cons o out ih => cases o <;> simp [List.filter_cons, ih, Output.isTx]

/-! ### What an event transmits -/

/-- The kind of the frame that answers a frame of a class (R153 to R156). -/
def replyKind : FrameClass → Option TxKind
  | .bad => some .nak
  | .ack => none
  | .nak => none
  | .data _ => some .ack

/-- The kind of the frame an event transmits, if it transmits one (R69). -/
def eventTx (s : State) : Instr → Option TxKind
  | .tick => if s.link = .opened ∧ s.arb = .idle then some .req else none
  | .rxbyte b =>
    if s.arb = .awaitingResponse then (completedFrame s b).bind fun f => replyKind (classify s.cfg.poly f) else none
  | _ => none

theorem replyKind_eq_nak {c : FrameClass} : replyKind c = some .nak ↔ c = .bad := by cases c <;> simp [replyKind]

theorem replyKind_eq_ack {c : FrameClass} : replyKind c = some .ack ↔ ∃ p, c = .data p := by
  cases c <;> simp [replyKind]

theorem replyKind_ne_req (c : FrameClass) : replyKind c ≠ some .req := by cases c <;> simp [replyKind]

theorem eventTx_eq_req {i : Instr} : eventTx s i = some .req ↔ i = .tick ∧ s.link = .opened ∧ s.arb = .idle := by
  cases i <;> simp [eventTx, Option.bind_eq_some_iff, replyKind_ne_req]

/-- A reply answers the frame that an RXBYTE completes while busy. -/
theorem eventTx_eq_reply {i : Instr} {k : TxKind} (hk : k ≠ .req) :
    eventTx s i = some k ↔ s.arb = .awaitingResponse ∧
      ∃ b f, i = .rxbyte b ∧ completedFrame s b = some f ∧ replyKind (classify s.cfg.poly f) = some k := by
  cases i <;> simp [eventTx, hk.symm, Option.bind_eq_some_iff]

/-- From `s` to `s'` the history grows by at most one frame, of the given kind, and by records. -/
def Transmits (k : Option TxKind) (s s' : State) : Prop := ∃ new, s'.out = s.out ++ new ∧ txKinds new = k.toList

theorem Transmits.of_out_eq (h : s'.out = s.out) : Transmits none s s' := ⟨[], by simp [h], rfl⟩

theorem tearDown_transmits (e : LinkError) (s : State) : Transmits none s (tearDown e s) := by
  cases hl : s.link with
  | closed => exact .of_out_eq (by rw [tearDown_closed e hl])
  | opened =>
    rw [tearDown_opened e hl]
    exact ⟨_, List.append_assoc _ _ _, by simp⟩

theorem execSubmit_transmits {tag : Nat} {p : Bytes} {ms : Nat} (hs : execSubmit tag p ms s = .next s') :
    Transmits none s s' := by
  unfold execSubmit at hs
  split at hs <;> cases hs
  · exact ⟨_, refuseSubmit_out s tag _, rfl⟩
  · exact .of_out_eq rfl

theorem tickAccount_transmits (hs : tickAccount s = .next s') : Transmits none s s' := by
  obtain ⟨-, rfl⟩ | ⟨t, -, -, ⟨-, rfl⟩ | ⟨-, rfl⟩⟩ := tickAccount_cases hs
  · exact .of_out_eq rfl
  · exact .of_out_eq rfl
  · rw [complete_eq]
    exact ⟨_, rfl, txKinds_sinkRecord _ t _⟩

theorem execTick_transmits (hs : execTick s = .next s') : Transmits (eventTx s .tick) s s' := by
  obtain ⟨hl, rfl⟩ | ⟨-, ha, hs⟩ | ⟨t, q, hl, ha, -, rfl⟩ | ⟨hl, ha, -, -, rfl⟩ := execTick_cases hs
  · simpa [eventTx, hl] using Transmits.of_out_eq rfl
  · simpa [eventTx, ha] using tickAccount_transmits hs
  · exact ⟨_, rfl, by simp [eventTx, hl, ha]⟩
  · exact ⟨_, rfl, by simp [eventTx, hl, ha]⟩

theorem rxFrame_transmits {f : Bytes} (hs : rxFrame f s = .next s') :
    Transmits (if s.arb = .awaitingResponse then replyKind (classify s.cfg.poly f) else none) s s' := by
  obtain ⟨ha, rfl⟩ | ⟨ha, hc, rfl⟩ | ⟨t, ha, -, ⟨hc, rfl⟩ | ⟨hc, rfl⟩ | ⟨p, hc, rfl⟩⟩ := rxFrame_cases hs
  · simpa [ha] using Transmits.of_out_eq rfl
  · simpa [ha, hc, replyKind] using Transmits.of_out_eq (takeFrame_out s f)
  all_goals
    rw [complete_eq]
    simp [Transmits, ha, hc, replyKind]

theorem execRxbyte_transmits {b : Byte} (hs : execRxbyte b s = .next s') : Transmits (eventTx s (.rxbyte b)) s s' := by
  obtain ⟨hl, rfl⟩ | ⟨-, -, hc, rfl⟩ | ⟨f, -, -, hc, hs⟩ := execRxbyte_cases hs
  · simpa [eventTx, completedFrame, hl] using Transmits.of_out_eq rfl
  · simp only [eventTx, hc, Option.bind_none, ite_self]
    exact .of_out_eq rfl
  · simp only [eventTx, hc, Option.bind_some]
    exact (rxFrame_transmits hs :)

/-- What every event adds to the transmitted frames. -/
theorem exec_event_transmits {i : Instr} (he : i.isEvent = true) (hs : exec i s = .next s') :
    Transmits (eventTx s i) s s' := by
  cases i <;> simp only [Instr.isEvent, Bool.false_eq_true] at he
  case reset | openLink | evReserved => cases hs; exact .of_out_eq rfl
  case closeLink | terr => cases hs; exact tearDown_transmits _ s
  case submit tag p ms => exact execSubmit_transmits hs
  case tick => exact execTick_transmits hs
  case rxbyte b => exact execRxbyte_transmits hs

/-- Settles O55: the kinds an event transmits are those of `eventTx`, at most one, and `eventTx` gives each kind in its
own situation. -/
theorem transmitsInExactlyThreeSituations : Obligations.TransmitsInExactlyThreeSituations := fun i s s' he hs => by
  obtain ⟨new, hout, hkinds⟩ := exec_event_transmits he hs
  have hmem (k : TxKind) : (∃ f, Output.tx k f ∈ new) ↔ eventTx s i = some k := by
    rw [← mem_txKinds, hkinds, Option.mem_toList]
  refine ⟨new, hout, (hmem _).trans eventTx_eq_req, ?_, ?_, ?_⟩
  · simp [hmem, eventTx_eq_reply, replyKind_eq_ack]
  · simp [hmem, eventTx_eq_reply, replyKind_eq_nak]
  · rw [length_filter_isTx, hkinds]
    exact Option.length_toList_le

end Sys2Proof.Machine

/-! The encodings (30_encoding.md): every operation is read back from its record (R81; log entries 2 and 3), the words
of the table (R74, R79, R81), the class of a received frame (R78), the transmitted frames (R79) and the reserved
events (R81). -/

namespace Sys2Proof

/-! ### Each operand is read back, whatever follows it -/

/-- A bound of at least `n` leaves room for every group of `n`, since each further group divides what is left by 128. -/
theorem takeNat_natGroups {k n : Nat} (hn : n ≤ k) (r : Bytes) : takeNat (natGroups k n ++ r) = some (n, r) := by
  induction k generalizing n with
  | zero =>
    obtain rfl : n = 0 := by omega
    rfl
  | succ k ih =>
    unfold natGroups
    split
    · next hlast =>
      have hbyte : n % 256 = n := by omega
      simp [takeNat, hbyte, hlast]
    · next hmore =>
      have hbyte : (n % 128 + 128) % 256 = n % 128 + 128 := by omega
      have hdiv : n % 128 + 128 * (n / 128) = n := Nat.mod_add_div n 128
      simp [takeNat, hbyte, hdiv, ih (n := n / 128) (by omega)]

@[simp] theorem takeNat_putNat (n : Nat) (r : Bytes) : takeNat (putNat n ++ r) = some (n, r) :=
  takeNat_natGroups le_rfl r

@[simp] theorem takeBytes_putBytes (bs r : Bytes) : takeBytes (putBytes bs ++ r) = some (bs, r) := by
  simp [takeBytes, putBytes]

@[simp] theorem takeWord_putWord (c : Word16) (r : Bytes) : takeWord (putWord c ++ r) = some (c, r) := by
  have hjoin : Machine.hi8 c ++ Machine.lo8 c = c :=
    (BitVec.extractLsb'_append_extractLsb'_eq_extractLsb' rfl).trans BitVec.extractLsb'_eq_self
  simp [takeWord, putWord, hjoin]

theorem takeWordByte_putWord_byte (c : Word16) (b : Byte) (r : Bytes) :
    takeWordByte (putWord c ++ [b] ++ r) = some ((c, b), r) := by
  simp [takeWordByte, takeByte]

@[simp] theorem takeKind_putKind (k : TaskKind) (r : Bytes) : takeKind (putKind k ++ r) = some (k, r) := by
  cases k with
  | host tag => simp [takeKind, putKind]
  | poll => rfl

@[simp] theorem takeTask_putTask (t : Task) (r : Bytes) : takeTask (putTask t ++ r) = some (t, r) := by
  simp [takeTask, putTask]

@[simp] theorem takeVerdict_putVerdict (v : Verdict) (r : Bytes) : takeVerdict (putVerdict v ++ r) = some (v, r) := by
  cases v with
  | ok p => simp [takeVerdict, putVerdict]
  | error e => cases e <;> rfl

@[simp] theorem takeSubmit_putSubmit (tag : Nat) (p : Bytes) (ms : Nat) (r : Bytes) :
    takeSubmit (putSubmit tag p ms ++ r) = some ((tag, p, ms), r) := by
  simp [takeSubmit, putSubmit]

theorem takeCompletion_putTask_putVerdict (t : Task) (v : Verdict) (r : Bytes) :
    takeCompletion (putTask t ++ putVerdict v ++ r) = some ((t, v), r) := by
  simp [takeCompletion]

/-! ### Each operation is read back from its head and operands -/

theorem withOperands_of_read {α : Type} {head : Byte} {read : Option (α × Bytes)} {k : α → Instr} {a : α} {r : Bytes}
    (h : read = some (a, r)) : withOperands head read k = .ok (k a, r) := by
  rw [h, withOperands]

/-- The nine reserved event-select codes of R81. -/
theorem decodeHead_evReserved {ev : BitVec 4} (h : 7 ≤ ev.toNat) (r : Bytes) :
    decodeHead (ev.setWidth 8) r = .ok (.evReserved ev, r) := by
  obtain ⟨n, hn⟩ := ev
  have hlow : 7 ≤ n := h
  have hhigh : n < 16 := hn
  interval_cases n <;> rfl

/-- Of the conditions of `Instr.wellFormed` only that of EV.RESERVED is needed here: the codes below 7 are other heads. -/
theorem decodeHead_head_operands (i : Instr) (h : i.wellFormed = true) (r : Bytes) :
    decodeHead i.head (i.operands ++ r) = .ok (i, r) := by
  cases i
  case evReserved ev => exact decodeHead_evReserved (of_decide_eq_true h) r
  case submit | submitPayloadLength | submitQueueFull => exact withOperands_of_read (takeSubmit_putSubmit _ _ _ r)
  case dispatch t => exact withOperands_of_read (takeTask_putTask t r)
  case complete t v => exact withOperands_of_read (takeCompletion_putTask_putVerdict t v r)
  case crcBit c => exact withOperands_of_read (head := 0x53) (takeWord_putWord c r)
  case crcByte c b =>
    exact withOperands_of_read (head := 0x54) (k := fun x => .crcByte x.1 x.2) (takeWordByte_putWord_byte c b r)
  case rxFrame | rxIdle | rxData | txReq | encFrame | decPayload | crcGen | crcAppend | crcVerify =>
    exact withOperands_of_read (takeBytes_putBytes _ r)
  -- the operations without operands
  all_goals rfl

theorem decode_encode (i : Instr) (r : Bytes) (h : i.wellFormed = true) : decode (encode i ++ r) = .ok (i, r) := by
  simp [encode, decode, decodeHead_head_operands i h r, h]

/-- Settles O1: each head selects the reader of its operands, and each reader undoes its writer. -/
theorem decodeInvertsEncode : Obligations.DecodeInvertsEncode := decode_encode

/-! ### The words of the table -/

/-- A code from 7 to 15 with operand bytes of zeros. -/
theorem decodeTableWord_reserved {w : Nat} (hlow : 7 ≤ w) (hhigh : w ≤ 15) :
    decodeTableWord 4 w = some (.evReserved (BitVec.ofNat 4 w)) := by
  interval_cases w <;> rfl

/-- Settles O2: each written word is read by evaluation. -/
theorem tableWordsDecode : Obligations.TableWordsDecode :=
  ⟨rfl, rfl, rfl, rfl, rfl, rfl, rfl, fun _ => decodeTableWord_reserved, rfl, rfl, rfl, rfl, rfl, rfl⟩

end Sys2Proof

namespace Sys2Proof.Machine

/-! ### The class of a received frame -/

/-- The verifier on a frame given by its body and its two checksum bytes (R105). -/
theorem crcVerify_append_pair (poly : Word16) (body : Bytes) (x y : Byte) :
    crcVerify poly (body ++ [x, y]) = true ↔ x = lo8 (crc16 poly body) ∧ y = hi8 (crc16 poly body) := by
  simp [crcVerify, crcTrailer, Config.ckLen]

/-- The payload of a frame given by its body: what follows the header (R124). -/
theorem payload_append_pair (body : Bytes) (x y : Byte) : payload (body ++ [x, y]) = body.drop 3 := by
  simp [payload, Config.ckLen, Config.hdrLen]

theorem classify_short (poly : Word16) {f : Bytes} (h : f.length < 5) : classify poly f = .bad := if_pos h

theorem classify_append_pair (poly : Word16) {body : Bytes} (x y : Byte) (h : 3 ≤ body.length) :
    classify poly (body ++ [x, y]) =
      if x ≠ lo8 (crc16 poly body) ∨ y ≠ hi8 (crc16 poly body) then .bad
      else if body.drop 3 = [0x00] then .ack
      else if body.drop 3 = [0xFF] then .nak
      else .data (body.drop 3) := by
  have hsize : ¬ (body ++ [x, y]).length < Config.minFrame := by simpa [Config.minFrame] using h
  have hverify : crcVerify poly (body ++ [x, y]) = false ↔ x ≠ lo8 (crc16 poly body) ∨ y ≠ hi8 (crc16 poly body) := by
    rw [← Bool.not_eq_true, crcVerify_append_pair, not_and_or]
  simp only [classify, if_neg hsize, hverify, payload_append_pair]
  rfl

/-- Settles O3: the size test is the first clause; on a longer frame the checksum and the payload decide. -/
theorem frameClassByChecksumAndPayload : Obligations.FrameClassByChecksumAndPayload := fun poly =>
  ⟨fun _ h => classify_short poly h, fun _ x y h => classify_append_pair poly x y h⟩

/-! ### Reserved events and transmitted frames -/

/-- Settles O31: the meaning of a reserved event is the state it is given. -/
theorem reservedEventsDoNothing : Obligations.ReservedEventsDoNothing := fun _ _ _ => rfl

/-- Settles O47: `sendFrame` writes the frame and leaves the checksum register a free value. -/
theorem transmittedFramesAreEncoded : Obligations.TransmittedFramesAreEncoded := fun _ =>
  ⟨fun _ hmin hmax => ⟨_, _, if_pos ⟨hmin, hmax⟩⟩,
   fun _ hp => if_neg fun ⟨hmin, hmax⟩ => hp.elim (Nat.ne_of_gt hmin) (Nat.not_lt_of_ge hmax),
   ⟨_, _, rfl⟩, ⟨_, _, rfl⟩⟩

end Sys2Proof.Machine

/-! The checksum unit (40_checksum.md): the register is linear over exclusive or (R108), its table form (R107), the
residue of a string (R108 items 3 and 4), single flipped bits (R109), and the functions run on their own (R100 to
R105). -/

namespace Sys2Proof.Machine

variable {poly : Word16}

/-! ### Steps of the register -/

theorem crcBits_eq_iterate (poly : Word16) (n : Nat) : crcBits poly n = (crcBit poly)^[n] := by
  induction n with
  | zero => rfl
  | succ n ih =>
    funext c
    rw [crcBits, ih, Function.iterate_succ_apply]

theorem crcBits_add (poly : Word16) (m n : Nat) (c : Word16) :
    crcBits poly (m + n) c = crcBits poly m (crcBits poly n c) := by
  simp only [crcBits_eq_iterate, Function.iterate_add_apply]

theorem crcBit_of_low_set {c : Word16} (h : c.getLsbD 0 = true) : crcBit poly c = (c >>> 1) ^^^ poly := if_pos h

theorem crcBit_of_low_clear {c : Word16} (h : c.getLsbD 0 = false) : crcBit poly c = c >>> 1 :=
  if_neg (Bool.eq_false_iff.mp h)

/-- R108: a step adds no constant, so it is linear: `poly` enters when exactly one of the low bits is set. -/
theorem crcBit_xor (poly c d : Word16) : crcBit poly (c ^^^ d) = crcBit poly c ^^^ crcBit poly d := by
  have hshift : (c ^^^ d) >>> 1 = (c >>> 1) ^^^ (d >>> 1) := BitVec.ushiftRight_xor_distrib ..
  have hlow : (c ^^^ d).getLsbD 0 = (c.getLsbD 0 ^^ d.getLsbD 0) := BitVec.getLsbD_xor ..
  cases hc : c.getLsbD 0 <;> cases hd : d.getLsbD 0 <;> rw [hc, hd] at hlow
  · rw [crcBit_of_low_clear hlow, crcBit_of_low_clear hc, crcBit_of_low_clear hd, hshift]
  · rw [crcBit_of_low_set hlow, crcBit_of_low_clear hc, crcBit_of_low_set hd, hshift, BitVec.xor_assoc]
  · rw [crcBit_of_low_set hlow, crcBit_of_low_set hc, crcBit_of_low_clear hd, hshift]
    ac_rfl
  · rw [crcBit_of_low_clear hlow, crcBit_of_low_set hc, crcBit_of_low_set hd, hshift]
    calc (c >>> 1) ^^^ (d >>> 1)
        = (c >>> 1) ^^^ (d >>> 1) ^^^ (poly ^^^ poly) := by simp
      _ = ((c >>> 1) ^^^ poly) ^^^ ((d >>> 1) ^^^ poly) := by ac_rfl

theorem crcBits_xor (poly : Word16) (n : Nat) (c d : Word16) :
    crcBits poly n (c ^^^ d) = crcBits poly n c ^^^ crcBits poly n d := by
  induction n generalizing c d with
  | zero => rfl
  | succ n ih => simp only [crcBits, crcBit_xor, ih]

/-- Steps that meet no set bit at the low end only shift. -/
theorem crcBits_of_low_clear {n : Nat} {c : Word16} (h : ∀ i < n, c.getLsbD i = false) :
    crcBits poly n c = c >>> n := by
  induction n generalizing c with
  | zero => exact (BitVec.ushiftRight_zero c).symm
  | succ n ih =>
    have hrest : ∀ i < n, (c >>> 1).getLsbD i = false := fun i hi => by
      rw [BitVec.getLsbD_ushiftRight]
      exact h (1 + i) (by omega)
    rw [crcBits, crcBit_of_low_clear (h 0 n.succ_pos), ih hrest, ← BitVec.shiftRight_add, Nat.add_comm]

theorem crcBits_zero (poly : Word16) (n : Nat) : crcBits poly n 0 = 0 :=
  (crcBits_of_low_clear fun _ _ => BitVec.getLsbD_zero).trans BitVec.zero_ushiftRight

/-- A step drops only bit 0, and with bit 15 of `POLY` set the new bit 15 tells what it was (R108 item 4). -/
theorem crcBit_eq_zero (h15 : poly.getLsbD 15 = true) {c : Word16} (h : crcBit poly c = 0) : c = 0 := by
  cases hlow : c.getLsbD 0 with
  | true =>
    have htop : ((c >>> 1) ^^^ poly).getLsbD 15 = true := by simp [h15]
    rw [← crcBit_of_low_set hlow, h] at htop
    exact absurd htop (by decide)
  | false =>
    rw [crcBit_of_low_clear hlow] at h
    apply BitVec.eq_of_getLsbD_eq
    intro i _
    cases i with
    | zero => exact hlow
    | succ i =>
      calc c.getLsbD (i + 1) = (c >>> 1).getLsbD i := by rw [BitVec.getLsbD_ushiftRight, Nat.add_comm]
        _ = (0 : Word16).getLsbD (i + 1) := by simp [h]

theorem crcBit_injective (h15 : poly.getLsbD 15 = true) : Function.Injective (crcBit poly) := fun c d h => by
  have hdiff : crcBit poly (c ^^^ d) = 0 := by
    rw [crcBit_xor, h]
    exact BitVec.xor_self
  exact BitVec.xor_eq_zero_iff.mp (crcBit_eq_zero h15 hdiff)

theorem crcBits_injective (h15 : poly.getLsbD 15 = true) (n : Nat) : Function.Injective (crcBits poly n) := by
  rw [crcBits_eq_iterate]
  exact (crcBit_injective h15).iterate n

/-! ### Bytes into the register -/

theorem crcByte_xor (poly c d : Word16) (x y : Byte) :
    crcByte poly (c ^^^ d) (x ^^^ y) = crcByte poly c x ^^^ crcByte poly d y := by
  have hregroup : c ^^^ d ^^^ (x ^^^ y).setWidth 16 = (c ^^^ x.setWidth 16) ^^^ (d ^^^ y.setWidth 16) := by
    rw [BitVec.setWidth_xor]
    ac_rfl
  rw [crcByte, hregroup, crcBits_xor, crcByte, crcByte]

theorem crcByte_zero_left (poly : Word16) (b : Byte) : crcByte poly 0 b = crcBits poly 8 (b.setWidth 16) :=
  congrArg (crcBits poly 8) BitVec.zero_xor

theorem crcByte_zero_zero (poly : Word16) : crcByte poly 0 0 = 0 := crcBits_zero poly 8

theorem crcByte_injective (h15 : poly.getLsbD 15 = true) (b : Byte) : Function.Injective fun c => crcByte poly c b :=
  fun _ _ h => (BitVec.xor_left_inj _).mp (crcBits_injective h15 8 h)

theorem crcByte_byte_injective (h15 : poly.getLsbD 15 = true) (c : Word16) : Function.Injective (crcByte poly c) :=
  fun x y h => by
    have hwide : x.setWidth 16 = y.setWidth 16 := (BitVec.xor_right_inj _).mp (crcBits_injective h15 8 h)
    simpa using congrArg (BitVec.setWidth 8) hwide

/-! ### The two halves of the register -/

theorem lo8_eq_setWidth (v : Word16) : lo8 v = v.setWidth 8 := rfl

theorem setWidth_hi8 (v : Word16) : (hi8 v).setWidth 16 = v >>> 8 := by
  apply BitVec.eq_of_getLsbD_eq
  intro i hi
  by_cases hlow : i < 8
  · simp [hi8, hlow, hi]
  · simp [hi8, hlow, BitVec.getLsbD_of_ge v (8 + i) (by omega)]

theorem hi8_append_lo8 (v : Word16) : hi8 v ++ lo8 v = v :=
  (BitVec.extractLsb'_append_extractLsb'_eq_extractLsb' rfl).trans BitVec.extractLsb'_eq_self

theorem getLsbD_pair (y x : Byte) (i : Nat) :
    (y ++ x : Word16).getLsbD i = if i < 8 then x.getLsbD i else y.getLsbD (i - 8) := BitVec.getLsbD_append

theorem pair_eq_xor (y x : Byte) : (y ++ x : Word16) = (y ++ 0x00#8) ^^^ x.setWidth 16 := by
  apply BitVec.eq_of_getLsbD_eq
  intro i hi
  rw [BitVec.getLsbD_xor, BitVec.getLsbD_setWidth, getLsbD_pair, getLsbD_pair]
  by_cases hlow : i < 8
  · simp [hlow, hi]
  · simp [hlow, BitVec.getLsbD_of_ge x i (Nat.not_lt.mp hlow)]

/-- Eight steps bring the high half down into the low half. -/
theorem crcBits_high (poly : Word16) (y : Byte) : crcBits poly 8 (y ++ 0x00#8) = y.setWidth 16 := by
  have hshift : (y ++ 0x00#8 : Word16) >>> 8 = y.setWidth 16 := by
    apply BitVec.eq_of_getLsbD_eq
    intro i hi
    simp [getLsbD_pair, hi]
  rw [crcBits_of_low_clear fun i hi => by simp [getLsbD_pair, hi], hshift]

/-- Two bytes are sixteen steps, with the first byte in the low half and the second in the high half. -/
theorem crcByte_crcByte (poly c : Word16) (x y : Byte) :
    crcByte poly (crcByte poly c x) y = crcBits poly 16 (c ^^^ (y ++ x)) :=
  calc crcByte poly (crcByte poly c x) y
      = crcBits poly 8 (crcBits poly 8 (c ^^^ x.setWidth 16) ^^^ crcBits poly 8 (y ++ 0x00#8)) := by
        rw [crcBits_high, crcByte, crcByte]
    _ = crcBits poly 16 (c ^^^ x.setWidth 16 ^^^ (y ++ 0x00#8)) := by rw [← crcBits_xor, ← crcBits_add]
    _ = crcBits poly 16 (c ^^^ (y ++ x)) := by rw [pair_eq_xor y x, BitVec.xor_assoc, BitVec.xor_comm (y ++ 0x00#8)]

/-! ### Byte strings and their residue -/

theorem crc16_append_singleton (poly : Word16) (bs : Bytes) (b : Byte) :
    crc16 poly (bs ++ [b]) = crcByte poly (crc16 poly bs) b := by
  simp [crc16]

theorem crc16_append_pair (poly : Word16) (h : Bytes) (x y : Byte) :
    crc16 poly (h ++ [x, y]) = crcBits poly 16 (crc16 poly h ^^^ (y ++ x)) := by
  rw [← crcByte_crcByte]
  simp [crc16]

/-- R108 item 3, the half that holds for every polynomial: the trailer cancels the register. -/
theorem crc16_crcAppend (poly : Word16) (h : Bytes) : crc16 poly (crcAppend poly h) = 0 := by
  rw [crcAppend, crcTrailer, crc16_append_pair, hi8_append_lo8, BitVec.xor_self]
  exact crcBits_zero poly 16

theorem crcVerify_crcAppend (poly : Word16) (h : Bytes) : crcVerify poly (crcAppend poly h) = true :=
  (crcVerify_append_pair ..).mpr ⟨rfl, rfl⟩

/-- The verifier accepts nothing but the generator's strings (R104, R105). -/
theorem exists_crcAppend_of_crcVerify {f : Bytes} (h : crcVerify poly f = true) : ∃ body, f = crcAppend poly body := by
  have htrailer := eq_of_beq h
  exact ⟨f.take (f.length - Config.ckLen), by rw [crcAppend, ← htrailer, List.take_append_drop]⟩

theorem crc16_of_crcVerify {f : Bytes} (h : crcVerify poly f = true) : crc16 poly f = 0 := by
  obtain ⟨body, rfl⟩ := exists_crcAppend_of_crcVerify h
  exact crc16_crcAppend poly body

/-- R108 item 3, the converse: sixteen steps to zero start from zero, so the last two bytes are the register's halves. -/
theorem crcVerify_of_crc16_eq_zero (h15 : poly.getLsbD 15 = true) {h : Bytes} {x y : Byte}
    (hres : crc16 poly (h ++ [x, y]) = 0) : crcVerify poly (h ++ [x, y]) = true := by
  have hcancel : crc16 poly h ^^^ (y ++ x) = 0 := by
    rw [crc16_append_pair] at hres
    exact crcBits_injective h15 16 (hres.trans (crcBits_zero poly 16).symm)
  have hreg : crc16 poly h = y ++ x := BitVec.xor_eq_zero_iff.mp hcancel
  rw [crcVerify_append_pair, hreg]
  exact ⟨BitVec.extractLsb'_append_eq_right.symm, BitVec.extractLsb'_append_eq_left.symm⟩

/-! ### Strings that differ in one byte -/

theorem foldl_crcByte_injective (h15 : poly.getLsbD 15 = true) (bs : Bytes) :
    Function.Injective fun c => bs.foldl (crcByte poly) c := by
  induction bs with
  | nil => exact Function.injective_id
  | cons b bs ih => exact ih.comp (crcByte_injective h15 b)

/-- Another byte at one place gives another register value, whatever the register held before. -/
theorem foldl_crcByte_set_ne (h15 : poly.getLsbD 15 = true) {bs : Bytes} {k : Nat} (hk : k < bs.length) {b : Byte}
    (hb : b ≠ bs[k]) (c : Word16) : (bs.set k b).foldl (crcByte poly) c ≠ bs.foldl (crcByte poly) c := by
  induction bs generalizing k c with
  | nil => simp at hk
  | cons x bs ih =>
    cases k with
    | zero => exact fun heq => hb (crcByte_byte_injective h15 c (foldl_crcByte_injective h15 bs heq))
    | succ k => exact ih (Nat.lt_of_succ_lt_succ hk) hb (crcByte poly c x)

theorem crc16_flipBit_ne (h15 : poly.getLsbD 15 = true) {f : Bytes} {k j : Nat} (hk : k < f.length) (hj : j < 8) :
    crc16 poly (flipBit f k j) ≠ crc16 poly f := by
  have hflip : f.getD k 0 ^^^ BitVec.twoPow 8 j ≠ f[k] := fun heq => by
    have hbit := congrArg (BitVec.getLsbD · j) heq
    simp [hk, hj] at hbit
  exact foldl_crcByte_set_ne h15 hk hflip 0

/-- Settles O12: a flipped bit moves the residue away from zero, and what verifies has residue zero. -/
theorem singleBitCorruptionIsDetected : Obligations.SingleBitCorruptionIsDetected := fun poly b =>
  ⟨crcVerify_crcAppend poly b, fun h15 _ _ hk hj => Bool.eq_false_iff.mpr fun hverify =>
    crc16_flipBit_ne h15 hk hj ((crc16_of_crcVerify hverify).trans (crc16_crcAppend poly b).symm)⟩

/-- Settles O11: the trailer cancels the register, and with bit 15 set no other two bytes do. -/
theorem zeroResidueMeansVerified : Obligations.ZeroResidueMeansVerified := fun poly h =>
  ⟨crc16_crcAppend poly h, fun h15 _ _ hres => crcVerify_of_crc16_eq_zero h15 hres⟩

/-! ### Linearity and the table form -/

theorem foldl_crcByte_xorBytes (poly : Word16) {a b : Bytes} (h : a.length = b.length) (c d : Word16) :
    (xorBytes a b).foldl (crcByte poly) (c ^^^ d) = a.foldl (crcByte poly) c ^^^ b.foldl (crcByte poly) d := by
  induction a generalizing b c d with
  | nil =>
    obtain rfl := List.length_eq_zero_iff.mp h.symm
    rfl
  | cons x a ih =>
    cases b with
    | nil => simp at h
    | cons y b =>
      calc (xorBytes (x :: a) (y :: b)).foldl (crcByte poly) (c ^^^ d)
          = (xorBytes a b).foldl (crcByte poly) (crcByte poly c x ^^^ crcByte poly d y) := by
            rw [← crcByte_xor]
            rfl
        _ = _ := ih (Nat.succ.inj h) ..

theorem crc16_xorBytes (poly : Word16) {a b : Bytes} (h : a.length = b.length) :
    crc16 poly (xorBytes a b) = crc16 poly a ^^^ crc16 poly b := foldl_crcByte_xorBytes poly h 0 0

theorem crc16_zero_cons (poly : Word16) (s : Bytes) : crc16 poly (0x00 :: s) = crc16 poly s := by
  rw [crc16, List.foldl_cons, crcByte_zero_zero, crc16]

theorem crc16_replicate_zero_append (poly : Word16) (n : Nat) (s : Bytes) :
    crc16 poly (List.replicate n 0x00 ++ s) = crc16 poly s := by
  induction n with
  | zero => rfl
  | succ n ih => rw [List.replicate_succ, List.cons_append, crc16_zero_cons, ih]

/-- Settles O10: each byte is taken linearly, and a zero byte keeps the zero register. -/
theorem checksumIsLinearAndSkipsLeadingZeros : Obligations.ChecksumIsLinearAndSkipsLeadingZeros := fun poly =>
  ⟨fun _ _ h => crc16_xorBytes poly h, crc16_replicate_zero_append poly⟩

/-- Eight steps move the high half down unchanged, and what they make of the low half is in the table. -/
theorem crcBits_eight (poly v : Word16) : crcBits poly 8 v = (v >>> 8) ^^^ crcByte poly 0 (v.setWidth 8) :=
  calc crcBits poly 8 v
      = crcBits poly 8 ((hi8 v ++ 0x00#8) ^^^ (lo8 v).setWidth 16) := by rw [← pair_eq_xor, hi8_append_lo8]
    _ = (v >>> 8) ^^^ crcBits poly 8 ((lo8 v).setWidth 16) := by rw [crcBits_xor, crcBits_high, setWidth_hi8]
    _ = (v >>> 8) ^^^ crcByte poly 0 (v.setWidth 8) := by rw [lo8_eq_setWidth, crcByte_zero_left]

theorem crcByte_eq_table (poly c : Word16) (b : Byte) :
    crcByte poly c b = (c >>> 8) ^^^ crcByte poly 0 ((c ^^^ b.setWidth 16).setWidth 8) := by
  have hshift : (c ^^^ b.setWidth 16) >>> 8 = c >>> 8 := by
    apply BitVec.eq_of_getLsbD_eq
    simp
  rw [crcByte, crcBits_eight, hshift]

/-- Settles O13: the high half of the register only moves down. -/
theorem tableDrivenFormAgrees : Obligations.TableDrivenFormAgrees := crcByte_eq_table

/-! ### The functions run on their own -/

/-- Settles O5: the two cases of a step. -/
theorem crcInitAndCrcBit : Obligations.CrcInitAndCrcBit := fun c s => ⟨rfl, by
  change execCrcBit c s = _
  cases hlow : c.getLsbD 0 with
  | true => rw [execCrcBit, crcBit_of_low_set hlow, if_pos rfl]
  | false => rw [execCrcBit, crcBit_of_low_clear hlow, if_neg Bool.false_ne_true]⟩

/-- Settles O6: eight steps are the eighth iterate of one. -/
theorem crcByteIsEightBitSteps : Obligations.CrcByteIsEightBitSteps := fun c b s => by
  change execCrcByte c b s = _
  rw [execCrcByte, crcByte, crcBits_eq_iterate]
  rfl

/-- Settles O7: one more byte is one more step of the fold. -/
theorem crcGenRunsFromZeroInOrder : Obligations.CrcGenRunsFromZeroInOrder := fun s =>
  ⟨rfl, fun bs b => ⟨crc16 s.cfg.poly bs, rfl, by
    change execCrcGen (bs ++ [b]) s = execCrcByte _ b s
    rw [execCrcGen, execCrcByte, crc16_append_singleton]⟩⟩

/-- Settles O8: the register's two halves follow the string. -/
theorem crcAppendPutsLowByteFirst : Obligations.CrcAppendPutsLowByteFirst := fun _ _ => ⟨_, _, rfl⟩

/-- Settles O9: inside the domain the verdict is the comparison of both bytes, outside it the run stops. -/
theorem crcVerifyComparesBothBytes : Obligations.CrcVerifyComparesBothBytes := fun s => by
  refine ⟨fun body x y hbody => ⟨Config.freeCrc s.free, s.free + 1, ?_⟩, fun f hf => if_neg (Nat.not_le_of_lt hf)⟩
  have hdomain : Config.minFrame ≤ (body ++ [x, y]).length := by simpa [Config.minFrame] using hbody
  have hverdict : crcVerify s.cfg.poly (body ++ [x, y]) =
      decide (lo8 (crc16 s.cfg.poly body) = x ∧ hi8 (crc16 s.cfg.poly body) = y) := by
    rw [Bool.eq_iff_iff, crcVerify_append_pair, decide_eq_true_iff, eq_comm, eq_comm (a := y)]
  change execCrcVerify (body ++ [x, y]) s = _
  rw [execCrcVerify, if_pos hdomain, hverdict]
  rfl

end Sys2Proof.Machine

/-! The frame codec (41_frame_codec.md): the frames the encoder makes (R120, R121), the rows of the decoder (R122 to
R125), the cutting of the byte stream into frames (R127), the round trip (R130) and concatenated frames (R131, R132). -/

namespace Sys2Proof.Machine

variable {s s' : State}

/-! ### The rows run on their own -/

/-- Settles O14: in the domain the row returns `frame(p)`, outside it stops. -/
theorem encFrameBuildsTheFrame : Obligations.EncFrameBuildsTheFrame := fun _ _ =>
  ⟨fun hmin hmax => ⟨_, _, if_pos ⟨hmin, hmax⟩⟩,
   fun hp => if_neg fun ⟨hmin, hmax⟩ => hp.elim (Nat.ne_of_gt hmin) (Nat.not_lt_of_ge hmax)⟩

/-- The payload of a frame given by its three parts (R124). -/
theorem payload_append {h p ck : Bytes} (hh : h.length = 3) (hck : ck.length = 2) : payload (h ++ p ++ ck) = p := by
  have hbody : (h ++ p ++ ck).length - Config.ckLen = (h ++ p).length := by
    rw [List.length_append, hck]
    exact Nat.add_sub_cancel ..
  rw [payload, hbody, List.take_left, Config.hdrLen, ← hh, List.drop_left]

/-- Settles O16: the domain is the frames of 5 bytes or more, and there the payload is the part in the middle. -/
theorem decPayloadStripsHeaderAndChecksum : Obligations.DecPayloadStripsHeaderAndChecksum := fun s => by
  refine ⟨fun h p ck hh hck => ?_, fun f hf => if_neg (Nat.not_le_of_lt hf)⟩
  have hdomain : Config.minFrame ≤ (h ++ p ++ ck).length := by
    simp only [List.length_append, hh, hck, Config.minFrame]
    omega
  change execDecPayload (h ++ p ++ ck) s = _
  rw [execDecPayload, if_pos hdomain, payload_append hh hck]

/-- Settles O17: the meaning of the row is `clearAssembler`. -/
theorem decClearZeroesTheCount : Obligations.DecClearZeroesTheCount := fun _ => rfl

/-- Settles O19: the read of the buffer is always in range. -/
theorem decEmitHandsTheBufferOver : Obligations.DecEmitHandsTheBufferOver := decEmit_eq

theorem execRxbyte_closed (b : Byte) (hl : s.link = .closed) : execRxbyte b s = .next s :=
  if_neg (by simp [not_isOpen_iff.mpr hl])

/-- RXBYTE on an open link, where `RXBUF` has room (R122). -/
theorem execRxbyte_opened (b : Byte) (hl : s.link = .opened) (hroom : s.rxcnt.toNat < 255) :
    execRxbyte b s =
      if State.frameComplete { s with rxbuf := bufferAfter s b, rxcnt := s.rxcnt + 1 }
      then decEmit { s with rxbuf := bufferAfter s b, rxcnt := s.rxcnt + 1 }
      else .next { s with rxbuf := bufferAfter s b, rxcnt := s.rxcnt + 1 } := by
  rw [execRxbyte, if_pos (isOpen_iff.mpr hl), pushByte_eq b hroom]

/-- Settles O18: on an open link RXBYTE pushes the byte, and the frame-complete test is R122's. -/
theorem rxbyteStoresAndTestsForCompletion : Obligations.RxbyteStoresAndTestsForCompletion := fun s b =>
  ⟨execRxbyte_closed b, fun hl hroom => by
    change execRxbyte b s = _
    simp only [execRxbyte_opened b hl (Nat.lt_succ_of_le hroom), frameComplete_iff]
    rfl⟩

/-! ### The frames the encoder makes -/

theorem length_frame (c : Params) (p : Bytes) : (frame c p).length = 3 + p.length + 2 := by
  simp only [frame, crcAppend, crcTrailer, frameBody, List.length_append, List.length_cons, List.length_nil]

theorem getD_two_frame (c : Params) (p : Bytes) : (frame c p).getD 2 0 = frameLen p := rfl

theorem toNat_frameLen {p : Bytes} (hmax : p.length ≤ 250) : (frameLen p).toNat = 3 + p.length + 2 := by
  rw [frameLen, BitVec.toNat_ofNat, Config.minFrame]
  omega

theorem payload_frame (c : Params) (p : Bytes) : payload (frame c p) = p := payload_append_pair ..

theorem crcVerify_frame (c : Params) (p : Bytes) : crcVerify c.poly (frame c p) = true := crcVerify_crcAppend ..

/-- Settles O15: a byte holds the length of every frame with a payload of at most 250 bytes. -/
theorem encodedFramesHaveTheirLengthAndVerify : Obligations.EncodedFramesHaveTheirLengthAndVerify :=
  fun c p _ hmax =>
    ⟨length_frame c p, by rw [getD_two_frame, toNat_frameLen hmax], crcVerify_frame c p⟩

/-- R121 as the assembler sees it: an encoded frame is as long as its third byte says. -/
theorem length_frame_eq_frameSize (c : Params) {p : Bytes} (hmax : p.length ≤ 250) :
    (frame c p).length = frameSize (frame c p) := by
  rw [frameSize, getD_two_frame, toNat_frameLen hmax, length_frame]
  omega

/-! ### The size of the frame that starts a byte string -/

theorem frameSize_le_255 (bs : Bytes) : frameSize bs ≤ 255 := by
  have := (bs.getD 2 0).isLt
  unfold frameSize
  omega

theorem frameSize_append {bs : Bytes} (h : 3 ≤ bs.length) (cs : Bytes) : frameSize (bs ++ cs) = frameSize bs := by
  rw [frameSize, List.getD_append _ _ _ _ h, frameSize]

/-- What stands before the end of a frame is shorter than the frame it starts. -/
theorem length_lt_frameSize_of_append {bs cs : Bytes} (hcs : cs ≠ [])
    (h : (bs ++ cs).length ≤ frameSize (bs ++ cs)) : bs.length < frameSize bs := by
  by_cases hlong : 3 ≤ bs.length
  · have hpos := List.length_pos_iff.mpr hcs
    rw [frameSize_append hlong, List.length_append] at h
    omega
  · exact (Nat.lt_of_not_le hlong).trans_le (le_max_left ..)

theorem length_take_lt_frameSize {bs : Bytes} (h : bs.length = frameSize bs) {k : Nat} (hk : k < bs.length) :
    (bs.take k).length < frameSize (bs.take k) :=
  length_lt_frameSize_of_append (cs := bs.drop k) (by simpa using hk) (by rw [List.take_append_drop, h])

/-! ### Byte strings in `RXBUF` -/

theorem Memory.setBytes_append (m : Memory) (a : Nat) (v w : Bytes) :
    m.setBytes a (v ++ w) = (m.setBytes a v).setBytes (a + v.length) w := by
  induction v generalizing m a with
  | nil => rfl
  | cons b v ih =>
    rw [List.cons_append, setBytes, ih, setBytes, List.length_cons, Nat.add_right_comm, Nat.add_assoc]

/-- A byte string written leaves the bytes below it alone. -/
theorem Memory.byte_setBytes_below {a c : Nat} (m : Memory) (v : Bytes) (h : c < a) :
    (m.setBytes a v).byte c = m.byte c := by
  induction v generalizing m a with
  | nil => rfl
  | cons b v ih => rw [setBytes, ih _ (Nat.lt_succ_of_lt h), byte_set_other b m (Nat.ne_of_gt h)]

/-- A byte string written reads back. -/
theorem Memory.bytes_setBytes {a : Nat} {m : Memory} {v : Bytes} (hm : m.wf = true)
    (ha : a + v.length ≤ rxbufSize) : (m.setBytes a v).bytes a v.length = v := by
  induction v generalizing m a with
  | nil => rfl
  | cons b v ih =>
    rw [List.length_cons] at ha ⊢
    rw [setBytes, bytes, byte_setBytes_below _ _ a.lt_succ_self, byte_set_same hm,
      ih (set_wf hm (by omega)) (by omega)]

theorem Memory.getD_bytes {n i : Nat} (m : Memory) (a : Nat) (h : i < n) : (m.bytes a n).getD i 0 = m.byte (a + i) := by
  induction n generalizing a i with
  | zero => exact absurd h i.not_lt_zero
  | succ n ih =>
    cases i with
    | zero => rfl
    | succ i => rw [bytes, List.getD_cons_succ, ih _ (Nat.lt_of_succ_lt_succ h), Nat.add_right_comm, Nat.add_assoc]

/-- A byte string written at offset 0 reads back byte by byte. -/
theorem Memory.byte_setBytes_zero {m : Memory} {v : Bytes} (hm : m.wf = true) (hv : v.length ≤ rxbufSize) {i : Nat}
    (hi : i < v.length) : (m.setBytes 0 v).byte i = v.getD i 0 := by
  have hread := getD_bytes (m.setBytes 0 v) 0 hi
  rwa [bytes_setBytes hm (by rwa [Nat.zero_add]), Nat.zero_add, eq_comm] at hread

/-! ### The assembler holding the first bytes of a frame -/

/-- The state whose assembler holds the bytes `bs` and nothing else. -/
def holding (bs : Bytes) (s : State) : State :=
  { s with rxbuf := s.rxbuf.setBytes 0 bs, rxcnt := BitVec.ofNat 8 bs.length }

theorem holding_nil (h0 : s.rxcnt = 0) : holding [] s = s := by
  change { s with rxcnt := 0 } = s
  rw [← h0]

theorem toNat_rxcnt_holding {bs : Bytes} (h : bs.length ≤ 255) : (holding bs s).rxcnt.toNat = bs.length :=
  (BitVec.toNat_ofNat ..).trans (Nat.mod_eq_of_lt (Nat.lt_succ_of_le h))

/-- Storing one more byte (R122). -/
theorem push_holding {bs : Bytes} (b : Byte) (h : bs.length < 255) :
    ({ holding bs s with
      rxbuf := bufferAfter (holding bs s) b, rxcnt := (holding bs s).rxcnt + 1 } : State) = holding (bs ++ [b]) s := by
  have hbuf : bufferAfter (holding bs s) b = s.rxbuf.setBytes 0 (bs ++ [b]) := by
    rw [bufferAfter, toNat_rxcnt_holding h.le, Memory.setBytes_append, Nat.zero_add]
    rfl
  have hcnt : (holding bs s).rxcnt + 1 = BitVec.ofNat 8 (bs ++ [b]).length := by
    rw [List.length_append]
    exact (BitVec.ofNat_add ..).symm
  rw [hbuf, hcnt]
  rfl

/-- The frame-complete test (R122) compares the bytes held with the size of the frame they start (R127). -/
theorem frameComplete_holding {bs : Bytes} (hwf : s.rxbuf.wf = true) (h : bs.length ≤ 255) :
    (holding bs s).frameComplete = true ↔ frameSize bs ≤ bs.length := by
  rw [frameComplete_iff, toNat_rxcnt_holding h, frameSize, max_le_iff]
  refine and_congr_right fun h3 => ?_
  rw [holding, Memory.byte_setBytes_zero hwf h h3]

/-- DEC.EMIT hands over exactly the bytes held (R123). -/
theorem decEmit_holding {bs : Bytes} (hwf : s.rxbuf.wf = true) (h : bs.length ≤ 255) :
    decEmit (holding bs s) = rxFrame bs { s with rxbuf := s.rxbuf.setBytes 0 bs, rxcnt := 0 } := by
  have hread : (holding bs s).rxbuf.bytes 0 bs.length = bs := Memory.bytes_setBytes hwf (by rwa [Nat.zero_add])
  rw [decEmit_eq, toNat_rxcnt_holding h, hread]
  rfl

/-- One more byte arrives: it completes the frame, or the assembler holds it too. -/
theorem execRxbyte_holding {bs : Bytes} (b : Byte) (hl : s.link = .opened) (hwf : s.rxbuf.wf = true)
    (h : bs.length < 255) :
    execRxbyte b (holding bs s) =
      if frameSize (bs ++ [b]) ≤ (bs ++ [b]).length
      then rxFrame (bs ++ [b]) { s with rxbuf := s.rxbuf.setBytes 0 (bs ++ [b]), rxcnt := 0 }
      else .next (holding (bs ++ [b]) s) := by
  have hlen : (bs ++ [b]).length ≤ 255 := by simpa using h
  have hroom : (holding bs s).rxcnt.toNat < 255 := by rwa [toNat_rxcnt_holding h.le]
  rw [execRxbyte_opened (s := holding bs s) b hl hroom, push_holding b h, decEmit_holding hwf hlen]
  simp only [frameComplete_holding hwf hlen]

/-! ### Sequences of operations -/

theorem runAll_append_of_next {is : List Instr} (js : List Instr) (h : runAll is s = .next s') :
    runAll (is ++ js) s = runAll js s' := by
  induction is generalizing s with
  | nil => cases h; rfl
  | cons i is ih =>
    rw [runAll] at h
    rw [List.cons_append, runAll]
    cases hi : exec i s with
    | next u => rw [hi] at h; exact ih h
    | fault r => rw [hi] at h; cases h
    | refused r => rw [hi] at h; cases h

theorem runAll_singleton (i : Instr) (s : State) : runAll [i] s = exec i s := by
  rw [runAll]
  cases exec i s <;> rfl

theorem chunk_append (as bs : Bytes) : chunk (as ++ bs) = chunk as ++ chunk bs := List.map_append

/-- How the transport cuts the bytes into chunks makes no difference (R131). -/
theorem flatMap_chunk (chunks : List Bytes) : chunks.flatMap chunk = chunk chunks.flatten := List.map_flatten.symm

/-! ### The byte stream is cut into frames -/

/-- Bytes that are short of the frame they start only fill the buffer. -/
theorem runAll_chunk_of_short {bs : Bytes} (hl : s.link = .opened) (h0 : s.rxcnt = 0) (hwf : s.rxbuf.wf = true)
    (hshort : bs.length < frameSize bs) : runAll (chunk bs) s = .next (holding bs s) := by
  induction bs using List.reverseRecOn with
  | nil => rw [holding_nil h0]; rfl
  | append_singleton bs b ih =>
    have hinit : bs.length < frameSize bs := length_lt_frameSize_of_append (by simp) hshort.le
    rw [chunk_append, runAll_append_of_next _ (ih hinit)]
    calc runAll [.rxbyte b] (holding bs s)
        = execRxbyte b (holding bs s) := runAll_singleton ..
      _ = .next (holding (bs ++ [b]) s) := by
        rw [execRxbyte_holding b hl hwf (hinit.trans_le (frameSize_le_255 bs)), if_neg hshort.not_ge]

/-- R127: the last byte of a frame hands it over. -/
theorem runAll_chunk_of_frame {bs : Bytes} (hl : s.link = .opened) (h0 : s.rxcnt = 0) (hwf : s.rxbuf.wf = true)
    (hsize : bs.length = frameSize bs) :
    runAll (chunk bs) s = rxFrame bs { s with rxbuf := s.rxbuf.setBytes 0 bs, rxcnt := 0 } := by
  cases bs using List.reverseRecOn with
  | nil => exact absurd hsize (by decide)
  | append_singleton bs b =>
    have hinit : bs.length < frameSize bs := length_lt_frameSize_of_append (by simp) hsize.le
    rw [chunk_append, runAll_append_of_next _ (runAll_chunk_of_short hl h0 hwf hinit)]
    calc runAll [.rxbyte b] (holding bs s)
        = execRxbyte b (holding bs s) := runAll_singleton ..
      _ = _ := by rw [execRxbyte_holding b hl hwf (hinit.trans_le (frameSize_le_255 bs)), if_pos hsize.ge]

/-- The bytes before the last of a frame only fill the buffer. -/
theorem runAll_chunk_take {bs : Bytes} (hl : s.link = .opened) (h0 : s.rxcnt = 0) (hwf : s.rxbuf.wf = true)
    (hsize : bs.length = frameSize bs) {k : Nat} (hk : k < bs.length) :
    runAll (chunk (bs.take k)) s =
      .next { s with rxbuf := s.rxbuf.setBytes 0 (bs.take k), rxcnt := BitVec.ofNat 8 k } := by
  rw [runAll_chunk_of_short hl h0 hwf (length_take_lt_frameSize hsize hk), holding, List.length_take_of_le hk.le]

theorem setBytes_zero_wf_of_frame {bs : Bytes} (hwf : s.rxbuf.wf = true) (hsize : bs.length = frameSize bs) :
    (s.rxbuf.setBytes 0 bs).wf = true :=
  Memory.setBytes_wf hwf (by rw [Nat.zero_add, hsize]; exact frameSize_le_255 bs)

/-- Settles O21: the buffer holds the bytes fed so far, and the test passes first at the last of them. -/
theorem streamIsCutByTheThirdByte : Obligations.StreamIsCutByTheThirdByte := fun _ _ hl h0 hwf hsize =>
  ⟨fun _ hk => ⟨_, runAll_chunk_take hl h0 hwf hsize hk⟩,
   _, setBytes_zero_wf_of_frame hwf hsize, runAll_chunk_of_frame hl h0 hwf hsize⟩

/-! ### Encoded frames through the assembler -/

/-- Settles O22: the Length byte of an encoded frame cuts the stream at its end (R121, R127). -/
theorem frameRoundTrip : Obligations.FrameRoundTrip := fun s p hl h0 hwf _ hmax => by
  have hsize := length_frame_eq_frameSize s.cfg hmax
  have hrun := runAll_chunk_of_frame hl h0 hwf hsize
  refine ⟨fun k hk => ⟨_, runAll_chunk_take hl h0 hwf hsize hk⟩, ⟨_, hrun⟩, fun t ht => ?_,
    payload_frame s.cfg p, crcVerify_frame s.cfg p⟩
  exact rxFrame_rxcnt (hrun.symm.trans ht)

theorem rxFrame_link {f : Bytes} (hs : rxFrame f s = .next s') : s'.link = s.link := by
  obtain ⟨-, rfl⟩ | ⟨-, -, rfl⟩ | ⟨t, -, -, ⟨-, rfl⟩ | ⟨-, rfl⟩ | ⟨p, -, rfl⟩⟩ := rxFrame_cases hs
  · rfl
  all_goals simp

/-- Settles O23: the state that answers the first frame is again open with an empty assembler, under the same
configuration. -/
theorem concatenatedFramesAreEmittedInTurn : Obligations.ConcatenatedFramesAreEmittedInTurn :=
  fun s p₁ p₂ chunks hl h0 hwf _ hmax₁ _ hmax₂ hbytes => by
    have hsize₁ := length_frame_eq_frameSize s.cfg hmax₁
    have hrun₁ := runAll_chunk_of_frame hl h0 hwf hsize₁
    refine ⟨_, hrun₁, fun t ht => ⟨t.rxbuf.setBytes 0 (frame s.cfg p₂), ?_⟩⟩
    have hbuf : t.rxbuf = s.rxbuf.setBytes 0 (frame s.cfg p₁) := (rxFrame_onlyAppends ht).rxbuf
    have hwf' : t.rxbuf.wf = true := hbuf ▸ setBytes_zero_wf_of_frame hwf hsize₁
    rw [flatMap_chunk, hbytes, chunk_append, runAll_append_of_next _ (hrun₁.trans ht)]
    exact runAll_chunk_of_frame ((rxFrame_link ht).trans hl) (rxFrame_rxcnt ht) hwf'
      (length_frame_eq_frameSize s.cfg hmax₂)

end Sys2Proof.Machine

/-! The arbiter (42_arbiter.md): the transitions of `ARB` (R170), the link events (R141, R142, R160), SUBMIT (R143 to
R145), TICK and its steps up to the timeout boundary (R146 to R150, R173), and what a received frame does (R151 to
R157). -/

namespace Sys2Proof.Machine

variable {s s' : State}

/-! ### The transitions of `ARB`

For each operation when it leaves the arbiter idle, whatever the arbiter was before. -/

theorem arb_eq_awaitingResponse_iff {a : Arb} : a = .awaitingResponse ↔ a ≠ .idle := by cases a <;> decide

/-- The Task in flight has spent its budget once this tick is counted (R147). -/
def TimesOut (s : State) : Prop :=
  s.toArmed = true ∧ ∃ t, s.cur = some t ∧ t.timeout ≤ s.toAcc + s.cfg.tickMs

theorem tearDown_arb_eq_idle (e : LinkError) (s : State) :
    (tearDown e s).arb = .idle ↔ s.arb = .idle ∨ s.link = .opened := by
  cases hl : s.link with
  | closed => simp [tearDown_closed e hl]
  | opened => simp [tearDown_opened e hl]

theorem execSubmit_arb {tag : Nat} {p : Bytes} {ms : Nat} (hs : execSubmit tag p ms s = .next s') :
    s'.arb = s.arb := by
  unfold execSubmit at hs
  split at hs <;> cases hs <;> rfl

theorem tickAccount_arb_eq_idle (hs : tickAccount s = .next s') : s'.arb = .idle ↔ s.arb = .idle ∨ TimesOut s := by
  obtain ⟨ha, rfl⟩ | ⟨t, ha, ht, ⟨hlt, rfl⟩ | ⟨hge, rfl⟩⟩ := tickAccount_cases hs
  · simp [TimesOut, ha]
  · simp [TimesOut, ht, Nat.not_le_of_lt hlt]
  · simp [TimesOut, ha, ht, hge]

/-- While idle a TICK on an open link dispatches a Task, and nothing else does (R146). -/
theorem execTick_arb_of_idle (ha : s.arb = .idle) (hs : execTick s = .next s') :
    s'.arb = .idle ↔ s.link ≠ .opened := by
  obtain ⟨hl, rfl⟩ | ⟨-, hb, -⟩ | ⟨t, q, hl, -, -, rfl⟩ | ⟨hl, -, -, -, rfl⟩ := execTick_cases hs
  · simp [ha, hl]
  · simp [ha] at hb
  · simp [hl]
  · simp [hl]

/-- While awaiting a response a TICK on an open link only accounts (R146). -/
theorem execTick_arb_of_awaiting (ha : s.arb = .awaitingResponse) (hs : execTick s = .next s') :
    s'.arb = .idle ↔ s.link = .opened ∧ TimesOut s := by
  obtain ⟨hl, rfl⟩ | ⟨hl, -, hs⟩ | ⟨t, q, -, hi, -⟩ | ⟨-, hi, -⟩ := execTick_cases hs
  · simp [ha, hl]
  · simp [tickAccount_arb_eq_idle hs, ha, hl]
  · simp [ha] at hi
  · simp [ha] at hi

/-- Every class of frame but the ACK marker ends the Task (R151 to R156). -/
theorem rxFrame_arb_eq_idle {f : Bytes} (hs : rxFrame f s = .next s') :
    s'.arb = .idle ↔ s.arb = .idle ∨ classify s.cfg.poly f ≠ .ack := by
  obtain ⟨ha, rfl⟩ | ⟨-, hc, rfl⟩ | ⟨t, -, -, ⟨hc, rfl⟩ | ⟨hc, rfl⟩ | ⟨p, hc, rfl⟩⟩ := rxFrame_cases hs
  · simp [ha]
  all_goals simp [hc]

theorem completedFrame_closed (b : Byte) (hl : s.link = .closed) : completedFrame s b = none := by
  simp [completedFrame, hl]

theorem execRxbyte_arb_eq_idle {b : Byte} (hs : execRxbyte b s = .next s') :
    s'.arb = .idle ↔ s.arb = .idle ∨ ∃ f, completedFrame s b = some f ∧ classify s.cfg.poly f ≠ .ack := by
  obtain ⟨hl, rfl⟩ | ⟨-, -, hc, rfl⟩ | ⟨f, -, -, hc, hs⟩ := execRxbyte_cases hs
  · simp [completedFrame_closed b hl]
  · simp [hc]
  · simpa [hc] using rxFrame_arb_eq_idle hs

theorem exec_event_arb_of_idle {i : Instr} (he : i.isEvent = true) (hs : exec i s = .next s') (ha : s.arb = .idle) :
    s'.arb = .awaitingResponse ↔ i = .tick ∧ s.link = .opened := by
  rw [arb_eq_awaitingResponse_iff]
  cases i <;> simp only [Instr.isEvent, Bool.false_eq_true] at he
  case reset => cases hs; simp
  case openLink | evReserved => cases hs; simp [ha]
  case closeLink | terr => cases hs; simp [tearDown_arb_eq_idle, ha]
  case submit tag p ms => simp [execSubmit_arb hs, ha]
  case tick => simp [execTick_arb_of_idle ha hs]
  case rxbyte b => simp [execRxbyte_arb_eq_idle hs, ha]

theorem exec_event_arb_of_awaiting {i : Instr} (he : i.isEvent = true) (hs : exec i s = .next s')
    (ha : s.arb = .awaitingResponse) :
    s'.arb = .idle ↔ i = .reset ∨ ((i = .closeLink ∨ i = .terr) ∧ s.link = .opened) ∨
      (i = .tick ∧ s.link = .opened ∧ TimesOut s) ∨
      ∃ b f, i = .rxbyte b ∧ completedFrame s b = some f ∧ classify s.cfg.poly f ≠ .ack := by
  cases i <;> simp only [Instr.isEvent, Bool.false_eq_true] at he
  case reset => cases hs; simp
  case openLink | evReserved => cases hs; simp [ha]
  case closeLink | terr => cases hs; simp [tearDown_arb_eq_idle, ha]
  case submit tag p ms => simp [execSubmit_arb hs, ha]
  case tick => simp [execTick_arb_of_awaiting ha hs]
  case rxbyte b => simp [execRxbyte_arb_eq_idle hs, ha]

/-- Settles O54: each event's transitions, from IDLE and from AWAITING_RESPONSE. -/
theorem arbiterTransitionsAreTheTable : Obligations.ArbiterTransitionsAreTheTable := fun _ _ _ he hs =>
  ⟨exec_event_arb_of_idle he hs, exec_event_arb_of_awaiting he hs⟩

/-! ### OPEN, CLOSE and TERR -/

/-- Settles O26: OPEN over OPEN writes the value the field already has. -/
theorem openOpensTheLink : Obligations.OpenOpensTheLink := fun _ =>
  ⟨rfl, fun hl => by rw [exec, execOpenLink, ← hl]⟩

/-- Settles O27: CLOSE is the tear-down with ConnectionClosed. -/
theorem closeFailsEveryTask : Obligations.CloseFailsEveryTask := fun _ =>
  ⟨fun hl => congrArg _ (tearDown_closed _ hl), fun hl => congrArg _ (tearDown_opened _ hl)⟩

/-- Settles O28: TERR is the tear-down with TransportError. -/
theorem transportErrorFailsEveryTask : Obligations.TransportErrorFailsEveryTask := fun _ =>
  ⟨fun hl => congrArg _ (tearDown_closed _ hl), fun hl => congrArg _ (tearDown_opened _ hl)⟩

/-! ### SUBMIT -/

theorem execSubmit_refused {p : Bytes} {e : LinkError} (tag ms : Nat) (h : submitRefusal s p = some e) :
    execSubmit tag p ms s = .next (refuseSubmit tag e s) := by simp only [execSubmit, h]

theorem execSubmit_accepted {p : Bytes} (tag ms : Nat) (h : submitRefusal s p = none) :
    execSubmit tag p ms s = .next (useCrc { s with q := s.q ++ [hostTask s.cfg tag p ms] }) := by
  simp only [execSubmit, h]

theorem not_inDomain_iff {p : Bytes} : ¬ inDomain p ↔ p.length < 1 ∨ 250 < p.length := by
  simp only [inDomain, Config.maxPayload]; omega

/-- Settles O29: the four outcomes of the tests, in their order. -/
theorem submitQueuesOrRefuses : Obligations.SubmitQueuesOrRefuses := fun s tag p ms => by
  simp only [← not_inDomain_iff, ← queueFull_iff]
  obtain ⟨hp, h⟩ | ⟨hp, hl, h⟩ | ⟨hp, hl, hq, h⟩ | ⟨hp, hl, hq, h⟩ := submitRefusal_cases s p
  · rw [if_pos hp]
    exact execSubmit_refused tag ms h
  · rw [if_neg (not_not_intro hp), if_pos hl]
    exact execSubmit_refused tag ms h
  · rw [if_neg (not_not_intro hp), if_neg (by simp [hl]), if_pos hq]
    exact execSubmit_refused tag ms h
  · rw [if_neg (not_not_intro hp), if_neg (by simp [hl]), if_neg (by simp [hq])]
    exact ⟨_, _, execSubmit_accepted tag ms h⟩

theorem submitRefusal_payloadLength {p : Bytes} (hp : ¬ inDomain p) : submitRefusal s p = some .payloadLength :=
  if_pos hp

theorem submitRefusal_queueFull {p : Bytes} (hp : inDomain p) (hl : s.link = .opened) (hq : s.queueFull = true) :
    submitRefusal s p = some .queueFull := by
  simp [submitRefusal, hp, isOpen_iff.mpr hl, hq]

/-- A refusal for a full queue finds a finite queue. -/
theorem submitRefusal_ne_queueFull (p : Bytes) (hd : s.cfg.queueDepth = none) :
    submitRefusal s p ≠ some .queueFull := by
  obtain ⟨-, h⟩ | ⟨-, -, h⟩ | ⟨-, -, hq, -⟩ | ⟨-, -, -, h⟩ := submitRefusal_cases s p
  · simp [h]
  · simp [h]
  · simp [queueFull_iff, hd] at hq
  · simp [h]

/-- A SUBMIT leaves the record of a refusal only when it is refused so. -/
theorem submitRefusal_of_record {tag ms : Nat} {p : Bytes} {e : LinkError}
    (h : execSubmit tag p ms s = .next { s with out := s.out ++ [.compl tag (.error e)] }) :
    submitRefusal s p = some e := by
  cases hr : submitRefusal s p with
  | none =>
    rw [execSubmit_accepted tag ms hr, Host.Outcome.next.injEq] at h
    simpa using congrArg State.out h
  | some e' =>
    rw [execSubmit_refused tag ms hr, Host.Outcome.next.injEq] at h
    simpa using congrArg State.out h

/-- Settles O30: under its condition a row makes the refusal SUBMIT makes. -/
theorem submitRefusalRows : Obligations.SubmitRefusalRows := fun s tag p ms => by
  refine ⟨fun hp => ?_, fun d hd hq hmin hmax hl => ?_, fun hd h => ?_⟩
  · have h : submitRefusal s p = some .payloadLength := submitRefusal_payloadLength (not_inDomain_iff.mpr (by omega))
    have hrow : exec (.submitPayloadLength tag p ms) s = .next (refuseSubmit tag .payloadLength s) := if_pos h
    exact ⟨hrow, (execSubmit_refused tag ms h).trans hrow.symm⟩
  · have h : submitRefusal s p = some .queueFull :=
      submitRefusal_queueFull ⟨hmin, hmax⟩ hl (queueFull_iff.mpr ⟨d, hd, hq⟩)
    have hrow : exec (.submitQueueFull tag p ms) s = .next (refuseSubmit tag .queueFull s) := if_pos h
    exact ⟨hrow, (execSubmit_refused tag ms h).trans hrow.symm⟩
  · exact submitRefusal_ne_queueFull p hd (submitRefusal_of_record h)

/-! ### TICK and DISPATCH -/

theorem execTick_closed (hl : s.link = .closed) : execTick s = .next s := by
  simp [execTick, not_isOpen_iff.mpr hl]

theorem execTick_busy (hl : s.link = .opened) (ha : s.arb = .awaitingResponse) : execTick s = tickAccount s := by
  simp [execTick, isOpen_iff.mpr hl, busy_iff.mpr ha]

theorem execTick_queued {t : Task} {q : List Task} (hl : s.link = .opened) (ha : s.arb = .idle) (hq : s.q = t :: q) :
    execTick s = .next (dispatch t { s with q := q }) := by
  simp [execTick, isOpen_iff.mpr hl, not_busy_iff.mpr ha, hq]

theorem execTick_poll (hl : s.link = .opened) (ha : s.arb = .idle) (hq : s.q = [])
    (hp : inDomain s.cfg.pollPayload) : execTick s = .next (dispatch (pollTask s.cfg) (useCrc s)) := by
  simp only [execTick, isOpen_iff.mpr hl, not_busy_iff.mpr ha, hq, if_true, Bool.false_eq_true, if_false]
  exact if_pos hp

theorem dispatch_eq (t : Task) (s : State) : dispatch t s = { s with
    arb := .awaitingResponse, cur := some t, toAcc := 0, toArmed := decide (t.timeout ≠ 0),
    out := s.out ++ [.tx .req t.frame] } := by
  rw [decide_not]; rfl

/-- Settles O37: the update of DISPATCH, field by field. -/
theorem dispatchSendsTheTask : Obligations.DispatchSendsTheTask := fun t s => congrArg _ (dispatch_eq t s)

/-- Settles O33: the head of the queue is dispatched. -/
theorem tickDispatchesTheOldestTask : Obligations.TickDispatchesTheOldestTask := fun _ _ _ hl ha hq =>
  (execTick_queued hl ha hq).trans (congrArg _ (dispatch_eq ..))

/-- Settles O34: with an empty queue the Poll is dispatched. -/
theorem idleTickSendsOnePoll : Obligations.IdleTickSendsOnePoll := fun _ hl ha hq hmin hmax =>
  ⟨_, _, (execTick_poll hl ha hq ⟨hmin, hmax⟩).trans (congrArg _ (dispatch_eq ..))⟩

/-- Settles O35: the four cases of TICK. -/
theorem tickAccountsOrDispatchesOneTask : Obligations.TickAccountsOrDispatchesOneTask := fun _ hmin hmax =>
  ⟨execTick_closed, execTick_busy, fun hl ha hq => ⟨_, _, execTick_poll hl ha hq ⟨hmin, hmax⟩⟩,
   fun _ _ hl ha hq => execTick_queued hl ha hq⟩

/-- Settles O38: POLLSYNTH returns the Task that an idle TICK dispatches. -/
theorem pollSynthMakesThePoll : Obligations.PollSynthMakesThePoll := fun _ hmin hmax =>
  ⟨_, _, if_pos ⟨hmin, hmax⟩⟩

/-! ### The timeout -/

theorem tickAccount_disarmed (ha : s.toArmed = false) : tickAccount s = .next s := by simp [tickAccount, ha]

theorem tickAccount_below {t : Task} (ha : s.toArmed = true) (ht : s.cur = some t)
    (hlt : s.toAcc + s.cfg.tickMs < t.timeout) : tickAccount s = .next { s with toAcc := s.toAcc + s.cfg.tickMs } := by
  simp [tickAccount, ha, ht, State.timedOut, Nat.not_le_of_lt hlt]

theorem tickAccount_reached {t : Task} (ha : s.toArmed = true) (ht : s.cur = some t)
    (hge : t.timeout ≤ s.toAcc + s.cfg.tickMs) :
    tickAccount s = timeout { s with toAcc := s.toAcc + s.cfg.tickMs } := by
  simp [tickAccount, ha, ht, State.timedOut, hge]

/-- Settles O36: the comparison of the counted budget with the Task's. -/
theorem tickAccountCountsUpToTheTimeout : Obligations.TickAccountCountsUpToTheTimeout := fun _ =>
  ⟨tickAccount_disarmed, fun _ ha ht => ⟨tickAccount_below ha ht, tickAccount_reached ha ht⟩⟩

/-- A Task that ends with an error leaves its record, and the arbiter is idle and disarmed. -/
theorem raise_eq {t : Task} (e : LinkError) (ht : s.cur = some t) : raise e s = .next { s with
    toArmed := false, arb := .idle, cur := none, out := s.out ++ [failureRecord e t] } :=
  (endTask_of_cur ht).trans (congrArg _ (complete_error t e))

/-- Settles O39: TIMEOUT raises RequestTimeout. -/
theorem timeoutEndsTheTask : Obligations.TimeoutEndsTheTask := fun _ _ => raise_eq .requestTimeout

/-- Ticks below the budget of the Task in flight only count. -/
theorem runAll_ticks_below {t : Task} (hl : s.link = .opened) (hb : s.arb = .awaitingResponse) (ht : s.cur = some t)
    (ha : s.toArmed = true) (h0 : s.toAcc = 0) {n : Nat} (hlt : n * s.cfg.tickMs < t.timeout) :
    runAll (List.replicate n .tick) s = .next { s with toAcc := n * s.cfg.tickMs } := by
  induction n with
  | zero =>
    rw [Nat.zero_mul]
    exact congrArg _ (by rw [← h0])
  | succ n ih =>
    rw [Nat.succ_mul] at hlt
    rw [List.replicate_succ', runAll_append_of_next _ (ih (by omega)), runAll_singleton, Nat.succ_mul]
    calc execTick { s with toAcc := n * s.cfg.tickMs }
        = tickAccount { s with toAcc := n * s.cfg.tickMs } := execTick_busy hl hb
      _ = _ := tickAccount_below ha ht hlt

/-- Settles O40: the ticks before the last only count, and the last one times the Task out. -/
theorem timeoutFallsOnTheFirstTickAtOrPastT : Obligations.TimeoutFallsOnTheFirstTickAtOrPastT :=
  fun s t n hl hb ht ha h0 _ => by
    refine ⟨runAll_ticks_below hl hb ht ha h0, fun hlt hge => ?_⟩
    rw [Nat.succ_mul] at hge ⊢
    rw [List.replicate_succ', runAll_append_of_next _ (runAll_ticks_below hl hb ht ha h0 hlt), runAll_singleton]
    calc execTick { s with toAcc := n * s.cfg.tickMs }
        = tickAccount { s with toAcc := n * s.cfg.tickMs } := execTick_busy hl hb
      _ = timeout { s with toAcc := n * s.cfg.tickMs + s.cfg.tickMs } := tickAccount_reached ha ht hge
      _ = _ := raise_eq .requestTimeout ht

/-! ### What a received frame does -/

/-- A frame taken while busy disarms the timeout and may leave `CRC` a free value. -/
theorem takeFrame_eq (f : Bytes) (s : State) :
    ∃ c n, takeFrame f s = { s with toArmed := false, crc := c, free := n } := by
  unfold takeFrame
  dsimp only
  split
  · exact ⟨s.crc, s.free, rfl⟩
  · exact ⟨_, _, rfl⟩

theorem rxFrame_busy (f : Bytes) (ha : s.arb = .awaitingResponse) :
    rxFrame f s = rxClass (classify s.cfg.poly f) (takeFrame f s) := by
  simp [rxFrame, busy_iff.mpr ha]

/-- The operation of a frame's class, by the tests in the order of R78 and R221. -/
theorem rxClass_classify (poly : Word16) (f : Bytes) (s : State) :
    rxClass (classify poly f) s =
      if f.length < 5 ∨ crcVerify poly f = false then rxBad s
      else if payload f = [0x00] then rxAck s
      else if payload f = [0xFF] then rxNak s
      else rxData (payload f) s := by
  have hclass : classify poly f =
      if f.length < 5 ∨ crcVerify poly f = false then .bad
      else if payload f = [0x00] then .ack
      else if payload f = [0xFF] then .nak
      else .data (payload f) := by rw [ite_or]; rfl
  rw [hclass]
  split_ifs <;> rfl

/-- Settles O41: while busy the class is run in the state that `takeFrame` leaves. -/
theorem rxFrameRunsTheClassOfTheFrame : Obligations.RxFrameRunsTheClassOfTheFrame := fun s f => by
  refine ⟨rxFrame_of_idle f, fun ha => ?_⟩
  obtain ⟨c, n, htake⟩ := takeFrame_eq f s
  exact ⟨c, n, by rw [← htake]; exact (rxFrame_busy f ha).trans (rxClass_classify ..)⟩

/-- Settles O42: after an ACK marker the state is the one `takeFrame` leaves. -/
theorem ackMarkerKeepsTheTaskInFlight : Obligations.AckMarkerKeepsTheTaskInFlight := fun s f => by
  refine ⟨rfl, rfl, fun ha hack => ?_⟩
  obtain ⟨c, n, htake⟩ := takeFrame_eq f s
  exact ⟨c, n, by rw [← htake, exec, execRxFrame, rxFrame_busy f ha, hack]; rfl⟩

/-- A reply frame goes out before the record of the Task it ends. -/
theorem endTask_sendFrame {t : Task} (v : Verdict) (k : TxKind) (p : Bytes) (ht : s.cur = some t) :
    ∃ c n, endTask v (sendFrame k p s) = .next { s with
      toArmed := false, arb := .idle, cur := none, crc := c, free := n,
      lastStatus := statusAfter s.lastStatus t v,
      out := s.out ++ [.tx k (frame s.cfg p), sinkRecord s.lastStatus t v] } := by
  rw [endTask_of_cur (s := sendFrame k p s) ht, complete_eq, release_out, sendFrame_out, List.append_assoc]
  exact ⟨_, _, rfl⟩

/-- Settles O43: the NAK frame, then the error, whose record does not depend on `LASTSTATUS`. -/
theorem badFrameIsNakedAndFailsTheTask : Obligations.BadFrameIsNakedAndFailsTheTask := fun s t ht => by
  obtain ⟨c, n, h⟩ := endTask_sendFrame (.error .checksumMismatch) .nak nakPayload ht
  rw [sinkRecord_error, statusAfter_error] at h
  exact ⟨c, n, h⟩

/-- Settles O44: RX.NAK raises PeerRejected. -/
theorem nakMarkerRejectsTheTask : Obligations.NakMarkerRejectsTheTask := fun _ _ => raise_eq .peerRejected

/-- Settles O45: the ACK frame, then success. -/
theorem dataFrameIsAckedAndCompletesTheTask : Obligations.DataFrameIsAckedAndCompletesTheTask := fun _ _ p ht =>
  endTask_sendFrame (.ok p) .ack ackPayload ht

/-- Settles O46: the sinks of a host Task, of a Poll that succeeds and of a Poll that fails. -/
theorem completeInvokesTheSinkOnce : Obligations.CompleteInvokesTheSinkOnce := fun s _ _ _ => by
  refine ⟨fun _ => rfl, fun p => ?_, fun _ => rfl⟩
  have hchanged : s.changed p = decide (s.lastStatus = none ∨ s.lastStatus ≠ some p) :=
    Bool.eq_iff_iff.mpr (by simp [State.changed])
  rw [← hchanged]
  rfl

end Sys2Proof.Machine

/-! Exceptions and coincident events (60_exceptions.md): the error codes (R200), a closed link (R216), that no event but RESET
loses or repeats a Task between its creation and its record (R211), and the order of the events of one cycle (R220). -/

namespace Sys2Proof.Machine

variable {s s' : State}

/-! ### The error codes and a closed link -/

/-- Settles O4: the codes are read off the table, and the sixteen code values are tried one by one. -/
theorem errorCodesAreTheTable : Obligations.ErrorCodesAreTheTable :=
  ⟨fun _ => rfl, rfl, rfl, rfl, rfl, rfl, rfl, rfl, rfl, fun e => by cases e <;> rfl, by decide⟩

theorem submitRefusal_connectionClosed {p : Bytes} (hp : inDomain p) (hl : s.link = .closed) :
    submitRefusal s p = some .connectionClosed := by
  simp [submitRefusal, hp, not_isOpen_iff.mpr hl]

/-- Settles O32: TICK and RXBYTE test the link first, SUBMIT tests it after the payload's length. -/
theorem closedLinkIsInert : Obligations.ClosedLinkIsInert := fun _ hl =>
  ⟨execTick_closed hl, fun b => execRxbyte_closed b hl, fun tag _ ms hmin hmax =>
    execSubmit_refused tag ms (submitRefusal_connectionClosed ⟨hmin, hmax⟩ hl)⟩

/-! ### The Tasks the block holds and the records of Tasks that end -/

/-- The Tasks without a record: the one in flight, then the queue. -/
def State.pending (s : State) : List Task := s.cur.toList ++ s.q

/-- The number of Polls among some Tasks. -/
def pollCount (ts : List Task) : Nat := (ts.filter fun t => t.kind == .poll).length

@[simp] theorem pollCount_nil : pollCount [] = 0 := rfl

@[simp] theorem pollCount_append (a b : List Task) : pollCount (a ++ b) = pollCount a + pollCount b := by
  simp [pollCount]

theorem pendingTags_eq (s : State) : s.pendingTags = hostTags s.pending := rfl

theorem pendingPolls_eq (s : State) : s.pendingPolls = pollCount s.pending := rfl

theorem doneTags_append {new : List Output} (h : s'.out = s.out ++ new) :
    s'.doneTags = s.doneTags ++ (complRecords new).map (·.1) := by
  simp [State.doneTags, State.compl, h]

theorem donePolls_append {new : List Output} (h : s'.out = s.out ++ new) :
    s'.donePolls = s.donePolls + (statusRecords new).length := by
  simp [State.donePolls, State.status, h]

/-- The records in a piece of the history are those of the sinks of the Tasks `ts`: the tags in order, and one STATUS
record per Poll. -/
structure RecordsOf (new : List Output) (ts : List Task) : Prop where
  tags : (complRecords new).map (·.1) = hostTags ts
  polls : (statusRecords new).length = pollCount ts

theorem recordsOf_nil : RecordsOf [] [] := ⟨rfl, rfl⟩

theorem RecordsOf.append {new new' : List Output} {ts ts' : List Task} (h : RecordsOf new ts)
    (h' : RecordsOf new' ts') : RecordsOf (new ++ new') (ts ++ ts') :=
  ⟨by simp [h.tags, h'.tags], by simp [h.polls, h'.polls]⟩

/-- A transmitted frame is no record. -/
theorem RecordsOf.cons_tx {new : List Output} {ts : List Task} (h : RecordsOf new ts) (k : TxKind) (f : Bytes) :
    RecordsOf (.tx k f :: new) ts := ⟨h.tags, h.polls⟩

theorem recordsOf_sinkRecord (last : Option Bytes) (t : Task) (v : Verdict) :
    RecordsOf [sinkRecord last t v] [t] where
  tags := complRecords_sinkRecord last t v
  polls := by obtain ⟨k, f, ms⟩ := t; cases k <;> cases v <;> rfl

theorem recordsOf_failures (e : LinkError) (ts : List Task) : RecordsOf (ts.map (failureRecord e)) ts := by
  induction ts with
  | nil => exact recordsOf_nil
  | cons t ts ih =>
    rw [List.map_cons, ← sinkRecord_error none e t]
    exact (recordsOf_sinkRecord none t (.error e)).append ih

/-- From `s` to `s'` the Tasks `added` join the pending ones at the end, and Tasks leave them at the front, each with
its record. -/
def Accounts (added : List Task) (s s' : State) : Prop :=
  ∃ ended new, s'.out = s.out ++ new ∧ RecordsOf new ended ∧ s.pending ++ added = ended ++ s'.pending

theorem Accounts.tags {added : List Task} (h : Accounts added s s') :
    s'.doneTags ++ s'.pendingTags = s.doneTags ++ s.pendingTags ++ hostTags added := by
  obtain ⟨ended, new, hout, hrec, hpend⟩ := h
  calc s'.doneTags ++ s'.pendingTags
      = s.doneTags ++ hostTags (ended ++ s'.pending) := by
        rw [doneTags_append hout, hrec.tags, List.append_assoc, hostTags_append, pendingTags_eq]
    _ = s.doneTags ++ s.pendingTags ++ hostTags added := by
        rw [← hpend, hostTags_append, List.append_assoc, pendingTags_eq]

theorem Accounts.polls {added : List Task} (h : Accounts added s s') :
    s'.pendingPolls + s'.donePolls = s.pendingPolls + s.donePolls + pollCount added := by
  obtain ⟨ended, new, hout, hrec, hpend⟩ := h
  have hcount := congrArg pollCount hpend
  rw [pollCount_append, pollCount_append] at hcount
  rw [donePolls_append hout, hrec.polls, pendingPolls_eq, pendingPolls_eq]
  omega

/-! ### What each event does with the pending Tasks -/

/-- No Task ends. -/
theorem Accounts.of_none_ended {added : List Task} {new : List Output} (hout : s'.out = s.out ++ new)
    (hrec : RecordsOf new []) (hpend : s'.pending = s.pending ++ added) : Accounts added s s' :=
  ⟨[], new, hout, hrec, hpend.symm⟩

theorem Accounts.of_unchanged (hout : s'.out = s.out) (hpend : s'.pending = s.pending) : Accounts [] s s' :=
  .of_none_ended (by simpa using hout) recordsOf_nil (by simpa using hpend)

/-- The Task in flight ends, perhaps after a reply frame, and the queue stays. -/
theorem complete_release_accounts {u : State} {t : Task} {frames : List Output} (v : Verdict) (ht : s.cur = some t)
    (hout : u.out = s.out ++ frames) (hframes : RecordsOf frames []) (hq : u.q = s.q) :
    Accounts [] s (complete t v (release u)) :=
  ⟨[t], frames ++ [sinkRecord u.lastStatus t v], by simp [complete_eq, hout],
    hframes.append (recordsOf_sinkRecord ..), by simp [State.pending, ht, hq]⟩

theorem tearDown_accounts (e : LinkError) (s : State) : Accounts [] s (tearDown e s) := by
  cases hl : s.link with
  | closed => rw [tearDown_closed e hl]; exact .of_unchanged rfl rfl
  | opened =>
    rw [tearDown_opened e hl]
    exact ⟨s.pending, _, List.append_assoc .., (recordsOf_failures e _).append (recordsOf_failures _ _), rfl⟩

/-- SUBMIT adds its Task to the pending ones, or leaves the record of a refusal. -/
theorem execSubmit_cases {tag ms : Nat} {p : Bytes} (hs : execSubmit tag p ms s = .next s') :
    (s'.pending = s.pending ++ [hostTask s.cfg tag p ms] ∧ s'.out = s.out) ∨
    (s'.pending = s.pending ∧ ∃ e, s'.out = s.out ++ [.compl tag (.error e)]) := by
  cases hr : submitRefusal s p with
  | none =>
    rw [execSubmit_accepted tag ms hr] at hs
    cases hs
    exact .inl ⟨(List.append_assoc ..).symm, rfl⟩
  | some e =>
    rw [execSubmit_refused tag ms hr] at hs
    cases hs
    exact .inr ⟨rfl, e, rfl⟩

/-- The tag of a SUBMIT is added once, at the end of the pending tags or of the recorded ones. -/
theorem execSubmit_tags {tag ms : Nat} {p : Bytes} (hs : execSubmit tag p ms s = .next s') :
    (s'.pendingTags = s.pendingTags ++ [tag] ∧ s'.doneTags = s.doneTags) ∨
    (s'.pendingTags = s.pendingTags ∧ s'.doneTags = s.doneTags ++ [tag]) := by
  simp only [pendingTags_eq]
  obtain ⟨hpend, hout⟩ | ⟨hpend, e, hout⟩ := execSubmit_cases hs
  · rw [hpend, hostTags_append, State.doneTags, State.compl, hout]
    exact .inl ⟨rfl, rfl⟩
  · rw [hpend, doneTags_append hout]
    exact .inr ⟨rfl, rfl⟩

/-- A SUBMIT concerns no Poll. -/
theorem execSubmit_polls {tag ms : Nat} {p : Bytes} (hs : execSubmit tag p ms s = .next s') :
    s'.pendingPolls = s.pendingPolls ∧ s'.donePolls = s.donePolls := by
  simp only [pendingPolls_eq]
  obtain ⟨hpend, hout⟩ | ⟨hpend, e, hout⟩ := execSubmit_cases hs
  · rw [hpend, pollCount_append, State.donePolls, State.status, hout]
    exact ⟨rfl, rfl⟩
  · rw [hpend, donePolls_append hout]
    exact ⟨rfl, rfl⟩

theorem tickAccount_accounts (hs : tickAccount s = .next s') : Accounts [] s s' := by
  obtain ⟨-, rfl⟩ | ⟨t, -, ht, ⟨-, rfl⟩ | ⟨-, rfl⟩⟩ := tickAccount_cases hs
  · exact .of_unchanged rfl rfl
  · exact .of_unchanged rfl rfl
  · exact complete_release_accounts _ ht (by simp) recordsOf_nil rfl

/-- The Poll an event makes, if it makes one (R149). -/
def pollMade (s : State) (i : Instr) : List Task :=
  if i = .tick ∧ s.link = .opened ∧ s.arb = .idle ∧ s.q = [] then [pollTask s.cfg] else []

theorem hostTags_pollMade (s : State) (i : Instr) : hostTags (pollMade s i) = [] := by
  unfold pollMade; split <;> rfl

theorem pollCount_pollMade (s : State) (i : Instr) :
    pollCount (pollMade s i) = if i = .tick ∧ s.link = .opened ∧ s.arb = .idle ∧ s.q = [] then 1 else 0 := by
  unfold pollMade; split <;> rfl

theorem pollMade_of_ne_tick {i : Instr} (hi : i ≠ .tick) : pollMade s i = [] := if_neg fun h => hi h.1

theorem BlockInv.cur_of_idle (h : BlockInv s) (ha : s.arb = .idle) : s.cur = none := by
  by_contra hc
  exact absurd (h.busy_iff.mpr hc) (by simp [not_busy_iff.mpr ha])

/-- A dispatched Task goes from the head of the pending Tasks to flight: R39 item 1 says that none is in flight yet. -/
theorem execTick_accounts (h : BlockInv s) (hs : execTick s = .next s') : Accounts (pollMade s .tick) s s' := by
  obtain ⟨hl, rfl⟩ | ⟨-, ha, hs⟩ | ⟨t, q, -, ha, hq, rfl⟩ | ⟨hl, ha, hq, -, rfl⟩ := execTick_cases hs
  · rw [pollMade, if_neg (by simp [hl])]
    exact .of_unchanged rfl rfl
  · rw [pollMade, if_neg (by simp [ha])]
    exact tickAccount_accounts hs
  · rw [pollMade, if_neg (by simp [hq])]
    exact .of_none_ended rfl (recordsOf_nil.cons_tx ..) (by simp [State.pending, h.cur_of_idle ha, hq])
  · rw [pollMade, if_pos ⟨rfl, hl, ha, hq⟩]
    exact .of_none_ended rfl (recordsOf_nil.cons_tx ..) (by simp [State.pending, h.cur_of_idle ha, hq])

theorem rxFrame_accounts {f : Bytes} (hs : rxFrame f s = .next s') : Accounts [] s s' := by
  obtain ⟨-, rfl⟩ | ⟨-, -, rfl⟩ | ⟨t, -, ht, ⟨-, rfl⟩ | ⟨-, rfl⟩ | ⟨p, -, rfl⟩⟩ := rxFrame_cases hs
  · exact .of_unchanged rfl rfl
  · exact .of_unchanged (takeFrame_out s f) (by simp [State.pending])
  · exact complete_release_accounts _ ht (by simp) (recordsOf_nil.cons_tx .nak (frame s.cfg nakPayload)) (by simp)
  · exact complete_release_accounts _ ht (by simp) recordsOf_nil (by simp)
  · exact complete_release_accounts _ ht (by simp) (recordsOf_nil.cons_tx .ack (frame s.cfg ackPayload)) (by simp)

theorem execRxbyte_accounts {b : Byte} (hs : execRxbyte b s = .next s') : Accounts [] s s' := by
  obtain ⟨-, rfl⟩ | ⟨-, -, -, rfl⟩ | ⟨f, -, -, -, hs⟩ := execRxbyte_cases hs
  · exact .of_unchanged rfl rfl
  · exact .of_unchanged rfl rfl
  · exact (rxFrame_accounts hs :)

/-- Every event but RESET, which drops the Tasks, and SUBMIT, which may leave the record of a refusal. -/
theorem exec_event_accounts (h : BlockInv s) {i : Instr} (he : i.isEvent = true) (hreset : i ≠ .reset)
    (hsubmit : ∀ tag p ms, i ≠ .submit tag p ms) (hs : exec i s = .next s') : Accounts (pollMade s i) s s' := by
  cases i <;> simp only [Instr.isEvent, Bool.false_eq_true] at he
  case tick => exact execTick_accounts h hs
  all_goals rw [pollMade_of_ne_tick (by simp)]
  case reset => exact absurd rfl hreset
  case submit tag p ms => exact absurd rfl (hsubmit tag p ms)
  case openLink | evReserved => cases hs; exact .of_unchanged rfl rfl
  case closeLink | terr => cases hs; exact tearDown_accounts _ s
  case rxbyte b => exact execRxbyte_accounts hs

/-- Settles O56: Tasks join the pending ones at the end and leave them at the front, each with its record. -/
theorem noHostTaskIsLostRepeatedOrReordered : Obligations.NoHostTaskIsLostRepeatedOrReordered :=
  fun i s s' h he hreset hs => by
    refine ⟨fun hsubmit => ?_, ?_⟩
    · simpa [hostTags_pollMade] using (exec_event_accounts h he hreset hsubmit hs).tags
    · rintro tag p ms rfl
      exact execSubmit_tags hs

/-- Settles O57: a Poll leaves the pending Tasks with its record, and the TICK that makes one adds it. -/
theorem pollsInFlightPlusStatusRecordsAreConserved : Obligations.PollsInFlightPlusStatusRecordsAreConserved :=
  fun i s s' h he hreset hs => by
    rw [← pollCount_pollMade]
    by_cases hsubmit : ∃ tag p ms, i = .submit tag p ms
    · obtain ⟨tag, p, ms, rfl⟩ := hsubmit
      obtain ⟨hpending, hdone⟩ := execSubmit_polls hs
      rw [hpending, hdone, pollMade_of_ne_tick (by simp)]
      rfl
    · simp only [not_exists] at hsubmit
      exact (exec_event_accounts h he hreset hsubmit hs).polls

/-! ### The order of coincident events -/

theorem priority_lt (i : Instr) : priority i < 8 := by cases i <;> simp [priority]

/-- The events of one priority, among the first `n` groups. -/
theorem filter_priority_groups (events : List Instr) (k n : Nat) :
    ((List.range n).flatMap fun j => events.filter fun i => priority i == j).filter (fun i => priority i == k) =
      if k < n then events.filter fun i => priority i == k else [] := by
  induction n with
  | zero => rfl
  | succ n ih =>
    have hgroup : (events.filter fun i => priority i == n).filter (fun i => priority i == k) =
        if k = n then events.filter fun i => priority i == k else [] := by
      rw [List.filter_filter]
      split
      · next h => simp [h]
      · next h =>
        refine List.filter_eq_nil_iff.mpr fun i _ => ?_
        rw [Bool.and_eq_true, beq_iff_eq, beq_iff_eq]
        omega
    rw [List.range_succ, List.flatMap_append, List.filter_append, ih, List.flatMap_singleton, hgroup]
    obtain h | rfl | h := lt_trichotomy k n
    · simp [h, h.ne, h.trans n.lt_succ_self]
    · simp
    · simp [h.ne', h.not_gt, Nat.not_lt.mpr (Nat.succ_le_of_lt h)]

theorem filter_priority_serialise (events : List Instr) (k : Nat) :
    (serialise events).filter (fun i => priority i == k) = events.filter fun i => priority i == k := by
  rw [serialise, filter_priority_groups]
  split
  · rfl
  · next hk =>
    refine (List.filter_eq_nil_iff.mpr fun i _ => ?_).symm
    simpa using ((priority_lt i).trans_le (Nat.le_of_not_lt hk)).ne

/-- Each event occurs as often as before, since its priority's group is kept. -/
theorem serialise_perm (events : List Instr) : (serialise events).Perm events := by
  refine List.perm_iff_count.mpr fun i => ?_
  calc (serialise events).count i
      = ((serialise events).filter fun j => priority j == priority i).count i := by
        rw [List.count_filter (by simp)]
    _ = events.count i := by rw [filter_priority_serialise, List.count_filter (by simp)]

theorem serialise_pairwise (events : List Instr) :
    (serialise events).Pairwise fun a b => priority a ≤ priority b := by
  refine List.pairwise_flatMap.mpr ⟨fun k _ => ?_, List.pairwise_lt_range.imp fun {j k} hjk a ha b hb => ?_⟩
  · exact List.pairwise_of_forall_mem_list fun a ha b hb => by
      simp only [List.mem_filter, beq_iff_eq] at ha hb
      omega
  · simp only [List.mem_filter, beq_iff_eq] at ha hb
    omega

/-- A step on presented events runs the first of them and leaves the others presented. -/
theorem step_present_cons {i : Instr} {is : List Instr} (hp : s.probe = none) (hin : s.input = [])
    (hwf : i.wellFormed = true) (he : i.isEvent = true) :
    step (s.present (i :: is)) = withInput (is.map encode) (exec i s) := by
  have hrecord : (s.present (i :: is)).input = encode i :: is.map encode := by simp [State.present, hin]
  have hdecode : decode (encode i) = .ok (i, []) := by simpa using decode_encode i [] hwf
  calc step (s.present (i :: is))
      = exec i { s with input := is.map encode } := step_event (s := s.present (i :: is)) hp hrecord hdecode he
    _ = withInput (is.map encode) (exec i s) := exec_with_input s _ i he

/-- Stepping presented events is running them one after another. -/
theorem runSteps_present {is : List Instr} (hp : s.probe = none) (hin : s.input = [])
    (his : ∀ i ∈ is, i.wellFormed = true ∧ i.isEvent = true) :
    runSteps is.length (s.present is) = runAll is s := by
  induction is generalizing s with
  | nil => exact congrArg _ (by simp [State.present])
  | cons i is ih =>
    obtain ⟨⟨hwf, he⟩, his⟩ := List.forall_mem_cons.mp his
    rw [List.length_cons, runSteps, runAll, step_present_cons hp hin hwf he]
    cases hs : exec i s with
    | next s' =>
      obtain ⟨m, hkeeps⟩ := exec_onlyAppends_from hs
      have hin' : s'.input = [] := hkeeps.input.trans hin
      have hpresent : ({ s' with input := is.map encode } : State) = s'.present is := by simp [State.present, hin']
      dsimp only [withInput]
      rw [hpresent, ih (hkeeps.probe.trans hp) hin' his]
    | fault r => rfl
    | refused r => rfl

/-- Settles O50: presented events run in order, and `serialise` groups them by priority. -/
theorem coincidentEventsRunByPriority : Obligations.CoincidentEventsRunByPriority := fun events => by
  have hperm := serialise_perm events
  refine ⟨fun s hp hin hev => ?_, hperm, serialise_pairwise events, filter_priority_serialise events, ?_⟩
  · rw [← hperm.length_eq]
    exact runSteps_present hp hin fun i hi => hev i (hperm.mem_iff.mp hi)
  · simp [priority]

end Sys2Proof.Machine

/-! Reset and hazards (70_reset_and_hazards.md): what RESET writes (R240) and the Task that no tick ends (R252, R253). -/

namespace Sys2Proof.Machine

variable {s : State}

/-- Settles O24: RESET clears the registers and the assembler, and `CRC` takes the next free value. -/
theorem resetClearsTheBlock : Obligations.ResetClearsTheBlock := fun s =>
  ⟨Config.freeCrc s.free, s.free + 1, rfl⟩

/-- An operation that leaves a state unchanged does so however often it runs. -/
theorem runAll_replicate_of_unchanged {i : Instr} (h : exec i s = .next s) (n : Nat) :
    runAll (List.replicate n i) s = .next s := by
  induction n with
  | zero => rfl
  | succ n ih => rw [List.replicate_succ', runAll_append_of_next _ ih, runAll_singleton, h]

/-- A tick leaves a Task in flight alone while its timeout is not armed, whether the link is open or closed. -/
theorem execTick_disarmed (hb : s.arb = .awaitingResponse) (ha : s.toArmed = false) : execTick s = .next s := by
  cases hl : s.link with
  | closed => exact execTick_closed hl
  | opened => exact (execTick_busy hl hb).trans (tickAccount_disarmed ha)

/-- Settles O48: one tick changes nothing, so no number of ticks does. -/
theorem disarmedTaskWaitsForEver : Obligations.DisarmedTaskWaitsForEver := fun _ n hb ha =>
  runAll_replicate_of_unchanged (i := .tick) (execTick_disarmed hb ha) n

end Sys2Proof.Machine
